-- ==== Sys2Proof/Word.lean ====
section
/-! DEFINITION. The widths of the block's values (00_scope.md R7) and the arithmetic primitives of the
spec's notation (00_scope.md R8). -/

namespace Sys2Proof

/-- A 32-bit word: ACC, INC, RDATA and the bus (R7: ACC_W = BUS_W = 32). -/
abbrev Word := BitVec 32

/-- A 38-bit command word CW (30_encoding.md R71). -/
abbrev CommandWord := BitVec 38

/-- A 2-bit operation field `cmd_op` (R72). -/
abbrev OpField := BitVec 2

/-- A 4-bit register word address `cmd_addr` (R7: ADDR_W = 4). -/
abbrev RegAddr := BitVec 4

/-- The 17-bit BLEND register (10_state.md R23). -/
abbrev BlendCode := BitVec 17

/-- A 16-bit sample, read as two's complement (R7: OUT_W = 16). -/
abbrev Sample := BitVec 16

end Sys2Proof
end

