-- ==== Sys2Proof/Syntax.lean ====
section
/-! DEFINITION. The commands: one constructor per row of spec/opcode_table.json (30_encoding.md R75).

A constructor keeps the operands of its row. The fields a NOP, a READ or a STEP ignores (R73) are not kept.
A WRITE keeps its data word even where the block discards it, since the assembler's `WR` takes it there too
and encodes it (R78, 95_test_vectors.md 2.6; DEDUCED, notes/assumptions/11.md). A row that stands for several
addresses keeps the address. -/

namespace Sys2Proof

/-- A command of the block. -/
inductive Instr where
  /-- NOP (40_step.md R112). -/
  | nop
  /-- RD_CTRL: READ of 0x0 (41_register_access.md R151). -/
  | rdCtrl
  /-- RD_INC: READ of 0x1 (R152). -/
  | rdInc
  /-- RD_BLEND: READ of 0x2 (R153). -/
  | rdBlend
  /-- RD_PHASE: READ of 0x3 (R154). -/
  | rdPhase
  /-- RD_OUT: READ of 0x4 (R155). -/
  | rdOut
  /-- RD_RSVD5: READ of the reserved address 0x5 (R156). -/
  | rdRsvd5
  /-- RD_RSVD6_7: READ of a reserved address 0x6 or 0x7 (R156). -/
  | rdRsvd6_7 (addr : RegAddr)
  /-- RD_RSVD8_15: READ of a reserved address 0x8 to 0xF (R156). -/
  | rdRsvd8_15 (addr : RegAddr)
  /-- WR_CTRL: WRITE to 0x0 (R158). -/
  | wrCtrl (wdata : Word)
  /-- WR_INC: WRITE to 0x1 (R159). -/
  | wrInc (wdata : Word)
  /-- WR_BLEND: WRITE to 0x2 (R160). -/
  | wrBlend (wdata : Word)
  /-- WR_PHASE: WRITE to 0x3 (R161). -/
  | wrPhase (wdata : Word)
  /-- WR_OUT: WRITE to the read-only 0x4 (R162). -/
  | wrOut (wdata : Word)
  /-- WR_RSVD5: WRITE to the reserved address 0x5 (R163). -/
  | wrRsvd5 (wdata : Word)
  /-- WR_RSVD6_7: WRITE to a reserved address 0x6 or 0x7 (R163). -/
  | wrRsvd6_7 (addr : RegAddr) (wdata : Word)
  /-- WR_RSVD8_15: WRITE to a reserved address 0x8 to 0xF (R163). -/
  | wrRsvd8_15 (addr : RegAddr) (wdata : Word)
  /-- STEP (40_step.md R100). -/
  | step
deriving DecidableEq, Repr

end Sys2Proof
end

