-- ==== Sys2Proof/WellFormed.lean ====
section
/-! DEFINITION. Which commands are well formed: the address a reserved row keeps is one the row stands for
(30_encoding.md R75). Every other operand may have any value. -/

namespace Sys2Proof

/-- The row's pattern 011x of CW[35:32]: addresses 0x6 and 0x7 (R75). -/
def addrIn6To7 (a : RegAddr) : Bool := a.toNat == 6 || a.toNat == 7

/-- The row's pattern 1xxx of CW[35:32]: addresses 0x8 to 0xF (R75). -/
def addrIn8To15 (a : RegAddr) : Bool := decide (8 ≤ a.toNat)

/-- A command some command word stands for. -/
def Instr.wellFormed : Instr → Bool
  | .nop | .step => true
  | .rdCtrl | .rdInc | .rdBlend | .rdPhase | .rdOut | .rdRsvd5 => true
  | .rdRsvd6_7 a => addrIn6To7 a
  | .rdRsvd8_15 a => addrIn8To15 a
  | .wrCtrl _ | .wrInc _ | .wrBlend _ | .wrPhase _ | .wrOut _ | .wrRsvd5 _ => true
  | .wrRsvd6_7 a _ => addrIn6To7 a
  | .wrRsvd8_15 a _ => addrIn8To15 a

end Sys2Proof
end

