-- ==== Sys2Proof/Decode.lean ====
section
/-! DEFINITION. The command word's fields, the decoder (total on command words, 30_encoding.md R75, R191),
the encoder (R71, R78) and the opcode map as data (R75). -/

namespace Sys2Proof

/-- `CW = (cmd_op, cmd_addr, cmd_wdata)`, cmd_op in the highest bits (R71). -/
def makeCommandWord (op : OpField) (addr : RegAddr) (wdata : Word) : CommandWord := op ++ addr ++ wdata

/-- `CW[37:36] = cmd_op` (R71). -/
def opField (cw : CommandWord) : OpField := cw.extractLsb' 36 2

/-- `CW[35:32] = cmd_addr` (R71). -/
def addrField (cw : CommandWord) : RegAddr := cw.extractLsb' 32 4

/-- `CW[31:0] = cmd_wdata` (R71). -/
def wdataField (cw : CommandWord) : Word := cw.extractLsb' 0 32

/-- The READ rows by address (R75). -/
def decodeRead (addr : RegAddr) : Instr :=
  match addr.toNat with
  | 0 => .rdCtrl
  | 1 => .rdInc
  | 2 => .rdBlend
  | 3 => .rdPhase
  | 4 => .rdOut
  | 5 => .rdRsvd5
  | 6 => .rdRsvd6_7 addr
  | 7 => .rdRsvd6_7 addr
  | _ => .rdRsvd8_15 addr

/-- The WRITE rows by address (R75). -/
def decodeWrite (addr : RegAddr) (wdata : Word) : Instr :=
  match addr.toNat with
  | 0 => .wrCtrl wdata
  | 1 => .wrInc wdata
  | 2 => .wrBlend wdata
  | 3 => .wrPhase wdata
  | 4 => .wrOut wdata
  | 5 => .wrRsvd5 wdata
  | 6 => .wrRsvd6_7 addr wdata
  | 7 => .wrRsvd6_7 addr wdata
  | _ => .wrRsvd8_15 addr wdata

/-- The four operations of R72 over the fields R73 says each uses. -/
def decodeFields (op : OpField) (addr : RegAddr) (wdata : Word) : Instr :=
  match op.toNat with
  | 0 => .nop
  | 1 => decodeRead addr
  | 2 => decodeWrite addr wdata
  | _ => .step

/-- The command a command word stands for: every word is one (R75, R76, R191). -/
def decode (cw : CommandWord) : Instr := decodeFields (opField cw) (addrField cw) (wdataField cw)

/-- Why a number is no command word. -/
inductive DecodeReject where
  /-- It has a bit at or above 38, which no command word has (R71, R77). Safe: nothing runs. -/
  | widerThanCommandWord (w : Nat)
deriving DecidableEq, Repr

/-- The decoder on any number: a number of 2^38 or more is rejected by name (R71, R77;
notes/assumptions/7.md). -/
def decodeNumber (w : Nat) : Except DecodeReject Instr :=
  if w < 2 ^ 38 then .ok (decode (BitVec.ofNat 38 w)) else .error (.widerThanCommandWord w)

/-- What the decoder reads from an instruction of the opcode table with bits `w`. The block has one command
length (R77), so the row's bit count adds nothing to `w`. -/
def decodeTableWord (_nbits w : Nat) : Option Instr :=
  match decodeNumber w with
  | .ok i => some i
  | .error _ => none

/-- The encoding of a command: the CW of R71 with the ignored fields 0 (R78). -/
def encode : Instr → CommandWord
  | .nop => makeCommandWord 0b00 0x0 0
  | .rdCtrl => makeCommandWord 0b01 0x0 0
  | .rdInc => makeCommandWord 0b01 0x1 0
  | .rdBlend => makeCommandWord 0b01 0x2 0
  | .rdPhase => makeCommandWord 0b01 0x3 0
  | .rdOut => makeCommandWord 0b01 0x4 0
  | .rdRsvd5 => makeCommandWord 0b01 0x5 0
  | .rdRsvd6_7 a => makeCommandWord 0b01 a 0
  | .rdRsvd8_15 a => makeCommandWord 0b01 a 0
  | .wrCtrl w => makeCommandWord 0b10 0x0 w
  | .wrInc w => makeCommandWord 0b10 0x1 w
  | .wrBlend w => makeCommandWord 0b10 0x2 w
  | .wrPhase w => makeCommandWord 0b10 0x3 w
  | .wrOut w => makeCommandWord 0b10 0x4 w
  | .wrRsvd5 w => makeCommandWord 0b10 0x5 w
  | .wrRsvd6_7 a w => makeCommandWord 0b10 a w
  | .wrRsvd8_15 a w => makeCommandWord 0b10 a w
  | .step => makeCommandWord 0b11 0x0 0

/-! ### The opcode map as data -/

/-- One row of R75's table. -/
structure OpcodeRow where
  mnemonic : String
  pattern : CommandWord
  mask : CommandWord
deriving DecidableEq, Repr

/-- The row's match and mask hold of the word. -/
def OpcodeRow.matchesWord (r : OpcodeRow) (cw : CommandWord) : Bool := cw &&& r.mask == r.pattern

/-- The 18 rows of R75, in the table's order. -/
def opcodeTable : List OpcodeRow := [
  ⟨"NOP", 0x0000000000, 0x3000000000⟩,
  ⟨"RD_CTRL", 0x1000000000, 0x3F00000000⟩,
  ⟨"RD_INC", 0x1100000000, 0x3F00000000⟩,
  ⟨"RD_BLEND", 0x1200000000, 0x3F00000000⟩,
  ⟨"RD_PHASE", 0x1300000000, 0x3F00000000⟩,
  ⟨"RD_OUT", 0x1400000000, 0x3F00000000⟩,
  ⟨"RD_RSVD5", 0x1500000000, 0x3F00000000⟩,
  ⟨"RD_RSVD6_7", 0x1600000000, 0x3E00000000⟩,
  ⟨"RD_RSVD8_15", 0x1800000000, 0x3800000000⟩,
  ⟨"WR_CTRL", 0x2000000000, 0x3F00000000⟩,
  ⟨"WR_INC", 0x2100000000, 0x3F00000000⟩,
  ⟨"WR_BLEND", 0x2200000000, 0x3F00000000⟩,
  ⟨"WR_PHASE", 0x2300000000, 0x3F00000000⟩,
  ⟨"WR_OUT", 0x2400000000, 0x3F00000000⟩,
  ⟨"WR_RSVD5", 0x2500000000, 0x3F00000000⟩,
  ⟨"WR_RSVD6_7", 0x2600000000, 0x3E00000000⟩,
  ⟨"WR_RSVD8_15", 0x2800000000, 0x3800000000⟩,
  ⟨"STEP", 0x3000000000, 0x3000000000⟩]

/-- The table's mnemonic of a command (R75). -/
def Instr.mnemonic : Instr → String
  | .nop => "NOP"
  | .rdCtrl => "RD_CTRL"
  | .rdInc => "RD_INC"
  | .rdBlend => "RD_BLEND"
  | .rdPhase => "RD_PHASE"
  | .rdOut => "RD_OUT"
  | .rdRsvd5 => "RD_RSVD5"
  | .rdRsvd6_7 _ => "RD_RSVD6_7"
  | .rdRsvd8_15 _ => "RD_RSVD8_15"
  | .wrCtrl _ => "WR_CTRL"
  | .wrInc _ => "WR_INC"
  | .wrBlend _ => "WR_BLEND"
  | .wrPhase _ => "WR_PHASE"
  | .wrOut _ => "WR_OUT"
  | .wrRsvd5 _ => "WR_RSVD5"
  | .wrRsvd6_7 _ _ => "WR_RSVD6_7"
  | .wrRsvd8_15 _ _ => "WR_RSVD8_15"
  | .step => "STEP"

end Sys2Proof
end

