-- ==== Sys2Proof/Config.lean ====
section
/-! DEFINITION. What the spec fixes as a parameter of the block (00_scope.md R7), and the values it leaves
open, each a constant without a body: nothing can evaluate one or prove a value of it.

The parameters marked open in R7, SAMPLE_RATE and N_OSC, are arguments of Machine/Assembler.lean and
Machine/Platform.lean. -/

namespace Sys2Proof

/-- BLEND_ONE of R7: the blend code that means b = 1, the largest code a write stores (R23). -/
abbrev Config.blendOne : Nat := 65536

/-- The sample STEP leaves in OUT when BLEND holds a code above 65536, for which the spec states no
result: MIX is given for codes 0..65536 only (R109), and a larger code can be in the register only before
the first reset (93_implementation_defined.md I3).
A function of the four registers R40 says a STEP's value depends on, ACC being the register before the
STEP. DESIGN CHOICE, safe: notes/assumptions/5.md. -/
opaque Config.outBeyondOne (acc inc : Word) (blend : BlendCode) (shape : BitVec 1) : Sample

/-! The arbitrary draw of each register before the first reset (R212, I3), one independent constant per
register, each over the register's full width. The argument tells one power-up from another.
DESIGN CHOICE, safe: notes/assumptions/4.md. -/

/-- ACC before the first reset. -/
opaque Config.powerOnAcc (n : Nat) : Word
/-- INC before the first reset. -/
opaque Config.powerOnInc (n : Nat) : Word
/-- BLEND before the first reset: any of 0..131071, so R23's invariant need not hold (I3). -/
opaque Config.powerOnBlend (n : Nat) : BlendCode
/-- SHAPE before the first reset. -/
opaque Config.powerOnShape (n : Nat) : BitVec 1
/-- OUT before the first reset. -/
opaque Config.powerOnOut (n : Nat) : Sample
/-- RDATA before the first reset. -/
opaque Config.powerOnRdata (n : Nat) : Word
/-- RDV before the first reset. -/
opaque Config.powerOnRdv (n : Nat) : Bool
/-- OUTV before the first reset. -/
opaque Config.powerOnOutv (n : Nat) : Bool

end Sys2Proof
end

