-- ==== Sys2Proof/Machine/State.lean ====
section
/-! DEFINITION. The state of one block instance (10_state.md R20), the inputs the host drives
(30_encoding.md R70), the state after reset (R39), and the names of the reasons a step can stop. -/

namespace Sys2Proof.Machine

/-- The block's input ports in one cycle (R70), each carrying 0 or 1 in every bit. `clk` is not among them:
one step is one cycle. -/
structure PortInputs where
  /-- synchronous reset, active high (70_reset_and_hazards.md R210) -/
  rst : Bool
  /-- 1: a command is presented this cycle -/
  cmdValid : Bool
  /-- operation (R72) -/
  cmdOp : OpField
  /-- register word address -/
  cmdAddr : RegAddr
  /-- write data -/
  cmdWdata : Word
deriving DecidableEq, Repr

/-- What can happen to the block for which the spec gives no behaviour and says: refuse
(93_implementation_defined.md). Safe: no next state is claimed. notes/assumptions/6.md. -/
inductive Disturbance where
  /-- An input port is undriven, X or Z at the edge, or changes within its setup or hold window (I6). -/
  | undefinedInput
  /-- `rst` is deasserted in the middle of the cycle or asserted asynchronously (I7). -/
  | unsampledReset
  /-- The platform gates the clock or the power, and what survives is outside the spec (I13). -/
  | powerEvent
deriving DecidableEq, Repr

/-- One cycle as the host drives it. -/
inductive PortCycle where
  /-- The inputs are sampled at the edge that ends the cycle (R70). -/
  | sampled (inputs : PortInputs)
  /-- The cycle is disturbed in a way the spec gives no behaviour for. -/
  | disturbed (why : Disturbance)
deriving DecidableEq, Repr

/-- The eight registers of R20, and the cycles the host drives. -/
structure State where
  /-- ACC, the phase accumulator (R21) -/
  acc : Word
  /-- INC, the phase increment (R22) -/
  inc : Word
  /-- BLEND, the blend code (R23) -/
  blend : BlendCode
  /-- SHAPE, CTRL bit 0: 0 = triangle, 1 = saw (R24) -/
  shape : BitVec 1
  /-- OUT, the last sample (R25) -/
  out : Sample
  /-- RDATA, read data (R26) -/
  rdata : Word
  /-- RDV, read data valid (R26) -/
  rdv : Bool
  /-- OUTV, sample strobe (R27) -/
  outv : Bool
  /-- The model's own field, no state of the block: the cycles the host drives from the coming one on,
  in order; after the last, idle cycles. DESIGN CHOICE: notes/assumptions/1.md, 2.md. -/
  port : List PortCycle
deriving DecidableEq, Repr

/-- The reasons a step can end in a fault: none. "The block raises no synchronous exception. No command,
operand value or sequence of commands makes it trap, halt, stall or refuse" (60_exceptions.md R190). -/
inductive Fault where
deriving DecidableEq, Repr

/-- The reasons a step can end in a refusal. -/
inductive Refusal where
  /-- Raised by an arm of exec whose instruction has no meaning yet: by none, in this model. Safe. -/
  | notModelled (mnemonic : String)
  /-- Raised by the clock edge of a disturbed cycle, never by a command: the spec defines behaviour only for
  inputs and resets sampled at the edge and only while the block has power (I6, I7, I13). Safe. -/
  | disturbed (why : Disturbance)
deriving DecidableEq, Repr

/-- The machine right after reset: every register 0 (R39), and no cycle driven yet (the model's own field;
notes/assumptions/3.md). -/
def State.reset : State :=
  { acc := 0, inc := 0, blend := 0, shape := 0, out := 0, rdata := 0, rdv := false, outv := false, port := [] }

end Sys2Proof.Machine
end

