-- ==== Sys2Proof/Machine/Flags.lean ====
section
/-! DEFINITION. The block has no flags, condition codes or predicates (10_state.md R31): no flag is computed
anywhere. What each command does set is the pair of port strobes, written here in one place. -/

namespace Sys2Proof.Machine

/-- RDV and OUTV after the edge that ends a cycle (R26, R27). -/
def State.setStrobes (s : State) (rdv outv : Bool) : State := { s with rdv := rdv, outv := outv }

/-- After a READ: RDV = 1, OUTV = 0 (R150). -/
def State.strobeRead (s : State) : State := s.setStrobes true false

/-- After a STEP: RDV = 0, OUTV = 1 (R100). -/
def State.strobeSample (s : State) : State := s.setStrobes false true

/-- After any other cycle: RDV = 0, OUTV = 0 (R112, R157). -/
def State.strobeNone (s : State) : State := s.setStrobes false false

end Sys2Proof.Machine
end

