-- ==== Sys2Proof/Machine/Operands.lean ====
section
/-! DEFINITION. Operand assembly: the value each register takes from a WRITE's data word, the word each
register supplies to a READ (30_encoding.md R74), the fields of the phase that STEP uses (00_scope.md R7),
and the notation of R8 they rest on. -/

namespace Sys2Proof.Machine

/-- `a >>> n = floor(a / 2^n)` on integers (R8): Lean's integer division by a positive number rounds
toward −∞. -/
def asr (a : Int) (n : Nat) : Int := a / 2 ^ n

/-- `clamp(v, lo, hi) = min(max(v, lo), hi)` (R8). -/
def clamp (v lo hi : Int) : Int := min (max v lo) hi

/-! ### WRITE data (R74) -/

/-- `SHAPE <- wdata[0]`; bits 31:1 are discarded (R74, R158). -/
def shapeOperand (w : Word) : BitVec 1 := w.extractLsb' 0 1

/-- `BLEND <- clamp(signed(wdata), 0, 65536)` (R74, R160). -/
def blendOperand (w : Word) : BlendCode := BitVec.ofInt 17 (clamp w.toInt 0 Config.blendOne)

/-! ### READ data (R74) -/

/-- `zext_32(SHAPE)` (R151). -/
def ctrlWord (shape : BitVec 1) : Word := shape.setWidth 32

/-- `zext_32(BLEND)` (R153). -/
def blendWord (blend : BlendCode) : Word := blend.setWidth 32

/-- `sext_32(OUT)` (R155). -/
def outWord (out : Sample) : Word := out.signExtend 32

/-! ### Fields of the phase (R7) -/

/-- `acc[31:22]`, the index into the full-cycle sine (R105, PHASE_IDX_W = 10). -/
def tableIndex (acc : Word) : BitVec 10 := acc.extractLsb' 22 10

/-- `acc[21:10]`, the interpolation fraction (R105, INTERP_W = 12). -/
def tableFraction (acc : Word) : BitVec 12 := acc.extractLsb' 10 12

/-- `acc[31:16]`, the phase of the triangle and the saw (R106, R107, SHAPE_W = 16). -/
def shapePhase (acc : Word) : BitVec 16 := acc.extractLsb' 16 16

end Sys2Proof.Machine
end

