-- ==== Sys2Proof/Machine/Waveform.lean ====
section
/-! DEFINITION. The waveforms of one sample, in exact integers (40_step.md R103 to R109). -/

namespace Sys2Proof.Machine

/-- The table of R103, row by row as the spec prints it: entry k is in row r at column +c with k = r + c.
The values are normative. -/
def quarterRows : List (List Nat) := [
  [0, 201, 402, 603, 804, 1005, 1206, 1407, 1608, 1809, 2009, 2210, 2410, 2611, 2811, 3012],
  [3212, 3412, 3612, 3811, 4011, 4210, 4410, 4609, 4808, 5007, 5205, 5404, 5602, 5800, 5998, 6195],
  [6393, 6590, 6786, 6983, 7179, 7375, 7571, 7767, 7962, 8157, 8351, 8545, 8739, 8933, 9126, 9319],
  [9512, 9704, 9896, 10087, 10278, 10469, 10659, 10849, 11039, 11228, 11417, 11605, 11793, 11980, 12167, 12353],
  [12539, 12725, 12910, 13094, 13279, 13462, 13645, 13828, 14010, 14191, 14372, 14553, 14732, 14912, 15090, 15269],
  [15446, 15623, 15800, 15976, 16151, 16325, 16499, 16673, 16846, 17018, 17189, 17360, 17530, 17700, 17869, 18037],
  [18204, 18371, 18537, 18703, 18868, 19032, 19195, 19357, 19519, 19680, 19841, 20000, 20159, 20317, 20475, 20631],
  [20787, 20942, 21096, 21250, 21403, 21554, 21705, 21856, 22005, 22154, 22301, 22448, 22594, 22739, 22884, 23027],
  [23170, 23311, 23452, 23592, 23731, 23870, 24007, 24143, 24279, 24413, 24547, 24680, 24811, 24942, 25072, 25201],
  [25329, 25456, 25582, 25708, 25832, 25955, 26077, 26198, 26319, 26438, 26556, 26674, 26790, 26905, 27019, 27133],
  [27245, 27356, 27466, 27575, 27683, 27790, 27896, 28001, 28105, 28208, 28310, 28411, 28510, 28609, 28706, 28803],
  [28898, 28992, 29085, 29177, 29268, 29358, 29447, 29534, 29621, 29706, 29791, 29874, 29956, 30037, 30117, 30195],
  [30273, 30349, 30424, 30498, 30571, 30643, 30714, 30783, 30852, 30919, 30985, 31050, 31113, 31176, 31237, 31297],
  [31356, 31414, 31470, 31526, 31580, 31633, 31685, 31736, 31785, 31833, 31880, 31926, 31971, 32014, 32057, 32098],
  [32137, 32176, 32213, 32250, 32285, 32318, 32351, 32382, 32412, 32441, 32469, 32495, 32521, 32545, 32567, 32589],
  [32609, 32628, 32646, 32663, 32678, 32692, 32705, 32717, 32728, 32737, 32745, 32752, 32757, 32761, 32765, 32766],
  [32767]]

/-- `Q[k]` (R103), for k in 0..256; STEP asks for no other k. -/
def quarterSine (k : Nat) : Int := ((quarterRows.getD (k / 16) []).getD (k % 16) 0 : Nat)

/-- `SLUT(i)`: the full cycle from the quarter wave by symmetry, with q = i[9:8] and j = i[7:0] (R104). -/
def slut (i : BitVec 10) : Int :=
  match (i.extractLsb' 8 2).toNat with
  | 0 => quarterSine (i.extractLsb' 0 8).toNat
  | 1 => quarterSine (256 - (i.extractLsb' 0 8).toNat)
  | 2 => -quarterSine (i.extractLsb' 0 8).toNat
  | _ => -quarterSine (256 - (i.extractLsb' 0 8).toNat)

/-- `s0 + (((s1 − s0) · f + 2048) >>> 12)`: linear interpolation with a 12-bit fraction, rounded to
nearest, a tie toward +∞ (R105). -/
def interpolate (s0 s1 : Int) (f : Nat) : Int := s0 + asr ((s1 - s0) * f + 2048) 12

/-- `SINE(acc)` (R105). The index after 1023 is 0: it is a 10-bit number. -/
def sine (acc : Word) : Int :=
  interpolate (slut (tableIndex acc)) (slut (tableIndex acc + 1)) (tableFraction acc).toNat

/-- The triangle as a function of v = acc[31:16] (R106). -/
def triangleOf (v : Nat) : Int :=
  if v < 0x4000 then 2 * v
  else if v < 0xC000 then min (65536 - 2 * v) 32767
  else 2 * v - 131072

/-- `TRI(acc)` (R106). -/
def triangle (acc : Word) : Int := triangleOf (shapePhase acc).toNat

/-- `SAW(acc) = signed(acc[31:16])` (R107). -/
def saw (acc : Word) : Int := (shapePhase acc).toInt

/-- The second waveform: the triangle when SHAPE = 0, the saw when SHAPE = 1 (R108). -/
def secondWave (shape : BitVec 1) (acc : Word) : Int := if shape = 0 then triangle acc else saw acc

/-- `MIX(s, a, B)`: the linear blend, rounded to nearest, a tie toward +∞ (R109). For B in 0..65536. -/
def mix (s a : Int) (B : Nat) : Int := asr (s * (65536 - B) + a * B + 32768) 16

/-- The blended sample at an evaluated phase, for a blend code of 0..65536 (R100). -/
def blendedSample (accN : Word) (blend : BlendCode) (shape : BitVec 1) : Int :=
  mix (sine accN) (secondWave shape accN) blend.toNat

end Sys2Proof.Machine
end

