-- ==== Sys2Proof/Machine/Ops.lean ====
section
/-! DEFINITION. The named operations over the registers: the updates, RegRead and RegWrite (00_scope.md R9),
the shared bodies of READ, WRITE, STEP and NOP, the reset edge, and the output ports.

There is no operation for taking an exception and none for returning from one: the block has no exception,
no trap entry and no trap return (60_exceptions.md R190, R195, R197). -/

namespace Sys2Proof.Machine

/-! ### Register updates -/

/-- `ACC <- v`. -/
def State.setAcc (s : State) (v : Word) : State := { s with acc := v }
/-- `INC <- v`. -/
def State.setInc (s : State) (v : Word) : State := { s with inc := v }
/-- `BLEND <- v`. -/
def State.setBlend (s : State) (v : BlendCode) : State := { s with blend := v }
/-- `SHAPE <- v`. -/
def State.setShape (s : State) (v : BitVec 1) : State := { s with shape := v }
/-- `OUT <- v`. -/
def State.setOut (s : State) (v : Sample) : State := { s with out := v }
/-- `RDATA <- v`. -/
def State.setRdata (s : State) (v : Word) : State := { s with rdata := v }
/-- The cycles the host drives from here on (the model's own field). -/
def State.setPort (s : State) (p : List PortCycle) : State := { s with port := p }

/-! ### The register space (10_state.md R32, 20_memory.md R50) -/

/-- `RegRead(addr)`: the word the register at a word address supplies to a READ
(41_register_access.md R151 to R156; 10_state.md R33 to R38). -/
def regRead (addr : RegAddr) (s : State) : Word :=
  match addr.toNat with
  | 0 => ctrlWord s.shape
  | 1 => s.inc
  | 2 => blendWord s.blend
  | 3 => s.acc
  | 4 => outWord s.out
  | _ => 0

/-- `RegWrite(addr, w)`: the write effect of the register at a word address
(41_register_access.md R158 to R163; 10_state.md R33 to R38). -/
def regWrite (addr : RegAddr) (w : Word) (s : State) : State :=
  match addr.toNat with
  | 0 => s.setShape (shapeOperand w)
  | 1 => s.setInc w
  | 2 => s.setBlend (blendOperand w)
  | 3 => s.setAcc w
  | _ => s

/-! ### The four operations (30_encoding.md R72) -/

/-- READ: `RDATA <- RegRead(addr) ; RDV <- 1 ; OUTV <- 0` (R150). -/
def readCommand (addr : RegAddr) (s : State) : State := (s.setRdata (regRead addr s)).strobeRead

/-- WRITE: `RegWrite(addr, wdata) ; RDV <- 0 ; OUTV <- 0` (R157). -/
def writeCommand (addr : RegAddr) (w : Word) (s : State) : State := (regWrite addr w s).strobeNone

/-- NOP: `RDV <- 0 ; OUTV <- 0` (R112). -/
def nopCommand (s : State) : State := s.strobeNone

/-- `acc_n = (ACC + INC) mod 2^32` (R101). -/
def advancedPhase (s : State) : Word := s.acc + s.inc

/-- The sample STEP produces, evaluated at the advanced phase (R102, R109). For a blend code above 65536,
which only the state before the first reset can hold, the spec states no result: a free value
(notes/assumptions/5.md). -/
def nextSample (s : State) : Sample :=
  if s.blend.toNat ≤ Config.blendOne then
    BitVec.ofInt 16 (blendedSample (advancedPhase s) s.blend s.shape)
  else Config.outBeyondOne s.acc s.inc s.blend s.shape

/-- STEP: `ACC <- acc_n ; OUT <- y ; OUTV <- 1 ; RDV <- 0` (R100). -/
def stepCommand (s : State) : State :=
  ((s.setAcc (advancedPhase s)).setOut (nextSample s)).strobeSample

/-! ### Reset and power-up -/

/-- The edge of a cycle with `rst = 1`: every register takes its reset value
(70_reset_and_hazards.md R210). -/
def resetEdge (s : State) : State := State.reset.setPort s.port

/-- A block before its first reset: every register an arbitrary draw (R212, 93_implementation_defined.md I3).
`n` tells one power-up from another. notes/assumptions/4.md. -/
def State.powerOn (n : Nat) (port : List PortCycle) : State :=
  { acc := Config.powerOnAcc n, inc := Config.powerOnInc n, blend := Config.powerOnBlend n,
    shape := Config.powerOnShape n, out := Config.powerOnOut n, rdata := Config.powerOnRdata n,
    rdv := Config.powerOnRdv n, outv := Config.powerOnOutv n, port := port }

/-! ### Output ports -/

/-- The output ports of one cycle (30_encoding.md R70). -/
structure PortOutputs where
  rdData : Word
  rdValid : Bool
  outSample : Sample
  outValid : Bool
deriving DecidableEq, Repr

/-- The output ports in a cycle: the port registers as they stand before the edge that ends it
(10_state.md R25 to R27; 70_reset_and_hazards.md R215, R216; notes/assumptions/12.md). -/
def outputPorts (s : State) : PortOutputs :=
  { rdData := s.rdata, rdValid := s.rdv, outSample := s.out, outValid := s.outv }

end Sys2Proof.Machine
end

