-- ==== Sys2Proof/Machine/Oscillate.lean ====
section
/-! DEFINITION. The meanings of NOP and STEP (40_step.md). -/

namespace Sys2Proof.Machine

/-- NOP (R112). -/
def execNop (s : State) : Host.Outcome State Fault Refusal := .next (nopCommand s)

/-- STEP (R100). -/
def execStep (s : State) : Host.Outcome State Fault Refusal := .next (stepCommand s)

end Sys2Proof.Machine
end

