-- ==== Sys2Proof/Machine/Read.lean ====
section
/-! DEFINITION. The meanings of the READ commands (41_register_access.md R150 to R156). -/

namespace Sys2Proof.Machine

/-- RD_CTRL (R151). -/
def execRdCtrl (s : State) : Host.Outcome State Fault Refusal := .next (readCommand 0x0 s)

/-- RD_INC (R152). -/
def execRdInc (s : State) : Host.Outcome State Fault Refusal := .next (readCommand 0x1 s)

/-- RD_BLEND (R153). -/
def execRdBlend (s : State) : Host.Outcome State Fault Refusal := .next (readCommand 0x2 s)

/-- RD_PHASE (R154). -/
def execRdPhase (s : State) : Host.Outcome State Fault Refusal := .next (readCommand 0x3 s)

/-- RD_OUT (R155). -/
def execRdOut (s : State) : Host.Outcome State Fault Refusal := .next (readCommand 0x4 s)

/-- RD_RSVD5 (R156). -/
def execRdRsvd5 (s : State) : Host.Outcome State Fault Refusal := .next (readCommand 0x5 s)

/-- RD_RSVD6_7 (R156). -/
def execRdRsvd6_7 (addr : RegAddr) (s : State) : Host.Outcome State Fault Refusal := .next (readCommand addr s)

/-- RD_RSVD8_15 (R156). -/
def execRdRsvd8_15 (addr : RegAddr) (s : State) : Host.Outcome State Fault Refusal := .next (readCommand addr s)

end Sys2Proof.Machine
end

