-- ==== Sys2Proof/Machine/Write.lean ====
section
/-! DEFINITION. The meanings of the WRITE commands (41_register_access.md R157 to R163). -/

namespace Sys2Proof.Machine

/-- WR_CTRL (R158). -/
def execWrCtrl (w : Word) (s : State) : Host.Outcome State Fault Refusal := .next (writeCommand 0x0 w s)

/-- WR_INC (R159). -/
def execWrInc (w : Word) (s : State) : Host.Outcome State Fault Refusal := .next (writeCommand 0x1 w s)

/-- WR_BLEND (R160). -/
def execWrBlend (w : Word) (s : State) : Host.Outcome State Fault Refusal := .next (writeCommand 0x2 w s)

/-- WR_PHASE (R161). -/
def execWrPhase (w : Word) (s : State) : Host.Outcome State Fault Refusal := .next (writeCommand 0x3 w s)

/-- WR_OUT (R162). -/
def execWrOut (w : Word) (s : State) : Host.Outcome State Fault Refusal := .next (writeCommand 0x4 w s)

/-- WR_RSVD5 (R163). -/
def execWrRsvd5 (w : Word) (s : State) : Host.Outcome State Fault Refusal := .next (writeCommand 0x5 w s)

/-- WR_RSVD6_7 (R163). -/
def execWrRsvd6_7 (addr : RegAddr) (w : Word) (s : State) : Host.Outcome State Fault Refusal := .next (writeCommand addr w s)

/-- WR_RSVD8_15 (R163). -/
def execWrRsvd8_15 (addr : RegAddr) (w : Word) (s : State) : Host.Outcome State Fault Refusal := .next (writeCommand addr w s)

end Sys2Proof.Machine
end

