-- ==== Sys2Proof/Machine/Dispatch.lean ====
section
/-! DEFINITION. One arm per command, each a direct call of its meaning. -/

namespace Sys2Proof.Machine

def exec (i : Instr) (s : State) : Host.Outcome State Fault Refusal :=
  match i with
  | .nop => Sys2Proof.Machine.execNop s
  | .rdCtrl => Sys2Proof.Machine.execRdCtrl s
  | .rdInc => Sys2Proof.Machine.execRdInc s
  | .rdBlend => Sys2Proof.Machine.execRdBlend s
  | .rdPhase => Sys2Proof.Machine.execRdPhase s
  | .rdOut => Sys2Proof.Machine.execRdOut s
  | .rdRsvd5 => Sys2Proof.Machine.execRdRsvd5 s
  | .rdRsvd6_7 addr => Sys2Proof.Machine.execRdRsvd6_7 addr s
  | .rdRsvd8_15 addr => Sys2Proof.Machine.execRdRsvd8_15 addr s
  | .wrCtrl w => Sys2Proof.Machine.execWrCtrl w s
  | .wrInc w => Sys2Proof.Machine.execWrInc w s
  | .wrBlend w => Sys2Proof.Machine.execWrBlend w s
  | .wrPhase w => Sys2Proof.Machine.execWrPhase w s
  | .wrOut w => Sys2Proof.Machine.execWrOut w s
  | .wrRsvd5 w => Sys2Proof.Machine.execWrRsvd5 w s
  | .wrRsvd6_7 addr w => Sys2Proof.Machine.execWrRsvd6_7 addr w s
  | .wrRsvd8_15 addr w => Sys2Proof.Machine.execWrRsvd8_15 addr w s
  | .step => Sys2Proof.Machine.execStep s

end Sys2Proof.Machine
end

