-- ==== Sys2Proof/Machine/Cycle.lean ====
section
/-! DEFINITION. One clock cycle: the inputs it samples, and what its edge does (30_encoding.md R70;
70_reset_and_hazards.md R210, R211). -/

namespace Sys2Proof.Machine

/-- The command word of a cycle's inputs (R71). -/
def PortInputs.commandWord (p : PortInputs) : CommandWord := makeCommandWord p.cmdOp p.cmdAddr p.cmdWdata

/-- The inputs of a cycle in which the host drives nothing: no reset, no command (R70). -/
def idleInputs : PortInputs := { rst := false, cmdValid := false, cmdOp := 0, cmdAddr := 0, cmdWdata := 0 }

/-- The inputs of a cycle that presents a command word (R71). -/
def commandInputs (cw : CommandWord) : PortInputs :=
  { rst := false, cmdValid := true, cmdOp := opField cw, cmdAddr := addrField cw, cmdWdata := wdataField cw }

/-- The inputs of a cycle that holds `rst = 1` with no command (R210). -/
def resetInputs : PortInputs := { idleInputs with rst := true }

/-- A cycle that presents a command word (R10, R71). -/
def commandCycle (cw : CommandWord) : PortCycle := .sampled (commandInputs cw)

/-- The coming cycle as the host drives it: idle once the listed cycles are over
(notes/assumptions/2.md). -/
def currentCycle (s : State) : PortCycle := s.port.headD (.sampled idleInputs)

/-- The cycle is taken off the list. -/
def consumeCycle (s : State) : State := s.setPort s.port.tail

/-- The edge of a cycle with sampled inputs: reset wins over a command (R211); without a valid command the
cycle behaves as NOP, whatever the other inputs (R70). -/
def edgeOfInputs (p : PortInputs) (s : State) : Host.Outcome State Fault Refusal :=
  if p.rst then .next (resetEdge s)
  else if p.cmdValid then exec (decode p.commandWord) s
  else exec .nop s

/-- The edge of a cycle: a disturbed one has no behaviour in the spec and is refused by name
(93_implementation_defined.md I6, I7, I13). -/
def clockEdge (c : PortCycle) (s : State) : Host.Outcome State Fault Refusal :=
  match c with
  | .sampled p => edgeOfInputs p s
  | .disturbed why => .refused (.disturbed why)

/-- The host presents this number as a command word in the coming cycle: the low 38 bits, since the port
has no more (R71; notes/assumptions/3.md, 7.md). Every other register and every later cycle stays. -/
def presentCommand (s : State) (w : Nat) : State :=
  s.setPort (.sampled (commandInputs (BitVec.ofNat 38 w)) :: s.port.tail)

end Sys2Proof.Machine
end

