-- ==== Sys2Proof/Machine/Step.lean ====
section
/-! DEFINITION. The step function: one clock cycle (00_scope.md R10). -/

namespace Sys2Proof.Machine

/-- One cycle: its inputs are taken off the host's list, and its edge is performed. -/
def step (s : State) : Host.Outcome State Fault Refusal := clockEdge (currentCycle s) (consumeCycle s)

/-- The state with a table word on the command port in the coming cycle, where the block takes its next
command (30_encoding.md R70). -/
def State.withFetchWord (s : State) (_nbits w : Nat) : State := presentCommand s w

end Sys2Proof.Machine
end

