-- ==== Sys2Proof/Machine/Assembler.lean ====
section
/-! DEFINITION. The assembler's commands and pseudo-instructions (30_encoding.md R78, R79). The block sees
only the command words they stand for. SAMPLE_RATE, open in 00_scope.md R7, is the argument `fs`. -/

namespace Sys2Proof.Machine

/-- A `<reg>` of R78: a name, or `A<n>`. -/
inductive AsmReg where
  | ctrl | inc | blend | phase | out
  | a (n : RegAddr)
deriving DecidableEq, Repr

/-- The word address of a `<reg>` (R78). -/
def AsmReg.address : AsmReg → RegAddr
  | .ctrl => 0x0
  | .inc => 0x1
  | .blend => 0x2
  | .phase => 0x3
  | .out => 0x4
  | .a n => n

/-- A command line of R78. -/
inductive AsmCommand where
  | nop
  | rd (reg : AsmReg)
  | wr (reg : AsmReg) (imm : Int)
  | step
deriving DecidableEq, Repr

/-- An `<imm>` lies in −2^31 .. 2^32 − 1 (R78). -/
def AsmCommand.wellFormed : AsmCommand → Bool
  | .wr _ imm => decide (-(2 ^ 31) ≤ imm) && decide (imm < 2 ^ 32)
  | _ => true

/-- The command a line stands for; a negative immediate is its 32-bit two's complement (R78). -/
def AsmCommand.assemble : AsmCommand → Instr
  | .nop => .nop
  | .rd reg => decodeRead reg.address
  | .wr reg imm => decodeWrite reg.address (BitVec.ofInt 32 imm)
  | .step => .step

/-- A pseudo-instruction of R79; frequencies, blend factors and angles are real numbers. -/
inductive Pseudo where
  /-- `STEP <n>` -/
  | stepN (n : Nat)
  /-- `WAIT <n>` -/
  | waitN (n : Nat)
  /-- `SETFREQ <f>`, f in hertz -/
  | setFreq (f : ℝ)
  /-- `SETBLEND <b>` -/
  | setBlend (b : ℝ)
  /-- `SHAPE TRI` -/
  | shapeTri
  /-- `SHAPE SAW` -/
  | shapeSaw
  /-- `SETPHASE <θ>`, θ in radians -/
  | setPhase (θ : ℝ)
  /-- `PHASE0` -/
  | phase0

/-- `n = floor(x)`. -/
def isFloor (x : ℝ) (n : Int) : Prop := (n : ℝ) ≤ x ∧ x < n + 1

/-- `w = n mod 2^32` for the integer n = floor(x). -/
def isFloorModWord (x : ℝ) (w : Word) : Prop := ∃ n : Int, isFloor x n ∧ (w.toNat : Int) = n % 2 ^ 32

/-- `w` is floor(x) as a 32-bit two's-complement value; no word is, where floor(x) does not fit 32 bits
(DESIGN CHOICE, safe: notes/assumptions/8.md). -/
def isFloorSignedWord (x : ℝ) (w : Word) : Prop := isFloor x w.toInt

/-- The expansions of R79 at sample rate `fs`. A repeat count is at least 1; a sample rate is positive
(notes/assumptions/8.md). -/
def Pseudo.expandsTo (fs : ℝ) : Pseudo → List Instr → Prop
  | .stepN n, cs => 1 ≤ n ∧ cs = List.replicate n .step
  | .waitN n, cs => 1 ≤ n ∧ cs = List.replicate n .nop
  | .setFreq f, cs => 0 < fs ∧ ∃ w, isFloorModWord (f * 2 ^ 32 / fs + 1 / 2) w ∧ cs = [.wrInc w]
  | .setBlend b, cs => ∃ w, isFloorSignedWord (b * 65536 + 1 / 2) w ∧ cs = [.wrBlend w]
  | .shapeTri, cs => cs = [.wrCtrl 0]
  | .shapeSaw, cs => cs = [.wrCtrl 1]
  | .setPhase θ, cs => ∃ w, isFloorModWord (θ * 2 ^ 32 / (2 * Real.pi) + 1 / 2) w ∧ cs = [.wrPhase w]
  | .phase0, cs => cs = [.wrPhase 0]

end Sys2Proof.Machine
end

