-- ==== Sys2Proof/Machine/Platform.lean ====
section
/-! DEFINITION. A platform of several block instances (60_exceptions.md R196): each has its own registers and
its own command port, and they share nothing. -/

namespace Sys2Proof.Machine

/-- The instances of a platform; N_OSC of R7 is the length. -/
abbrev Platform := List State

/-- A platform of N_OSC instances right after each one's reset. -/
def Platform.reset (nOsc : Nat) : Platform := List.replicate nOsc State.reset

/-- One cycle of one instance. The spec relates the cycles of two instances in no way, so a run of a platform
is any sequence of these (notes/assumptions/9.md). -/
def Platform.stepInstance (p : Platform) (k : Fin p.length) : Host.Outcome Platform Fault Refusal :=
  match step p[k] with
  | .next s' => .next (p.set k s')
  | .fault r => .fault r
  | .refused r => .refused r

end Sys2Proof.Machine
end

