-- ==== Sys2Proof/Machine/Run.lean ====
section
/-! DEFINITION. Runs and what they show (70_reset_and_hazards.md R220). -/

namespace Sys2Proof.Machine

/-- `n` cycles, ended at the first refusal. -/
def runCycles : Nat → State → Host.Outcome State Fault Refusal
  | 0, s => .next s
  | n + 1, s =>
    match step s with
    | .next s' => runCycles n s'
    | .fault r => .fault r
    | .refused r => .refused r

/-- What a run shows (R220): (a) the OUT values, one after each STEP; (b) the RDATA values, one after each
READ; (c) the state at the end. -/
structure Observation where
  outs : List Sample
  reads : List Word
  final : State
deriving DecidableEq, Repr

/-- The sample a state shows: OUT, while OUTV says a STEP has just ended (R27). -/
def shownSample (s : State) : List Sample := if s.outv then [s.out] else []

/-- The word a state shows: RDATA, while RDV says a READ has just ended (R26). -/
def shownRead (s : State) : List Word := if s.rdv then [s.rdata] else []

/-- The observation of `n` cycles from a state. -/
def observe : Nat → State → Host.Outcome Observation Fault Refusal
  | 0, s => .next { outs := [], reads := [], final := s }
  | n + 1, s =>
    match step s with
    | .next s' =>
      match observe n s' with
      | .next o => .next { outs := shownSample s' ++ o.outs, reads := shownRead s' ++ o.reads, final := o.final }
      | .fault r => .fault r
      | .refused r => .refused r
    | .fault r => .fault r
    | .refused r => .refused r

/-- A run of the block: power-up, a reset cycle, then the given cycles (R213, R220). -/
def observeRun (n : Nat) (cycles : List PortCycle) : Host.Outcome Observation Fault Refusal :=
  observe (cycles.length + 1) (State.powerOn n (.sampled resetInputs :: cycles))

end Sys2Proof.Machine
end

