-- ==== Sys2Proof/Safety.lean ====
section
/-! DEFINITION. What counts as a safe state and a defined cycle, in the terms the claims use. -/

namespace Sys2Proof.Machine

/-- The blend code is legal: "The invariant 0 ≤ BLEND ≤ 65536 always holds" (10_state.md R23). It need not
before the first reset (93_implementation_defined.md I3). -/
def State.blendLegal (s : State) : Prop := s.blend.toNat ≤ 65536

/-- The two strobes are never up together: a cycle holds one command (R26, R27). -/
def State.strobesExclusive (s : State) : Prop := ¬(s.rdv = true ∧ s.outv = true)

/-- While OUTV is up, OUT is the blended sample at the phase ACC holds (R100, R154). -/
def State.sampleCurrent (s : State) : Prop :=
  s.outv = true → s.out.toInt = blendedSample s.acc s.blend s.shape

/-- While RDV is up, RDATA is the word some register address supplies (R150). -/
def State.readCurrent (s : State) : Prop := s.rdv = true → ∃ addr : RegAddr, s.rdata = regRead addr s

/-- The invariant of the block from its first reset on. -/
structure State.Inv (s : State) : Prop where
  blend : s.blendLegal
  strobes : s.strobesExclusive
  sample : s.sampleCurrent
  read : s.readCurrent

/-- Every cycle the host drives carries 0 or 1 on every port at its edge, with the block powered: the cycles
the spec gives a behaviour for (93_implementation_defined.md I6, I7, I13). -/
def PortCycle.isSampled : PortCycle → Bool
  | .sampled _ => true
  | .disturbed _ => false

/-- A state in which the host drives only such cycles. -/
def State.portDefined (s : State) : Prop := ∀ c ∈ s.port, c.isSampled = true

end Sys2Proof.Machine
end

