-- ==== Sys2Proof/Certificates/Slice0/Obligations.lean ====
section
/-! DEFINITION. The statements for the provers. Each docstring names the rule of spec/ it formalises, or says
what it is derived from. A premise `s.blend.toNat ≤ 65536` is R23's invariant, kept by every step
(Obligations.EveryStepKeepsTheInvariant); it rules out only states before the first reset. -/

open Sys2Proof Sys2Proof.Machine

/-! ### Encoding -/

/-- Decode and encode agree on every well-formed command, every operand at every value (30_encoding.md
R71, R75, R78). -/
def Obligations.DecodeOfEncodeIsTheCommand : Prop :=
  ∀ i : Instr, i.wellFormed = true → decode (encode i) = i

/-- Every command word decodes to a well-formed command, and encoding that command gives the word back with
the fields R73 says it ignores set to 0 (R73, R78). -/
def Obligations.EncodeOfDecodeZeroesTheIgnoredFields : Prop :=
  ∀ (op : OpField) (addr : RegAddr) (w : Word),
    (decode (makeCommandWord op addr w)).wellFormed = true ∧
    encode (decode (makeCommandWord op addr w)) =
      if op = 0b01 then makeCommandWord op addr 0
      else if op = 0b10 then makeCommandWord op addr w
      else makeCommandWord op 0 0

/-- R75: of the 18 rows of the opcode map exactly one matches any command word, and it is the row of the
command the decoder reads; and a cycle with cmd_valid = 0 is a NOP whatever the word. -/
def Obligations.OneOpcodeRowMatchesEachWord : Prop :=
  (∀ cw : CommandWord,
    (opcodeTable.filter (fun r => r.matchesWord cw)).map OpcodeRow.mnemonic = [(decode cw).mnemonic]) ∧
  (∀ (s : State) (op : OpField) (addr : RegAddr) (w : Word) (rest : List PortCycle),
    s.port = .sampled { rst := false, cmdValid := false, cmdOp := op, cmdAddr := addr, cmdWdata := w } :: rest →
    step s = exec .nop (s.setPort rest))

/-- R73: NOP and STEP ignore the address and the data, READ ignores the data; READ uses the address, WRITE
uses the address and the data. -/
def Obligations.IgnoredFieldsHaveNoEffect : Prop :=
  (∀ (s : State) (a a' : RegAddr) (w w' : Word),
    exec (decode (makeCommandWord 0b00 a w)) s = exec (decode (makeCommandWord 0b00 a' w')) s ∧
    exec (decode (makeCommandWord 0b11 a w)) s = exec (decode (makeCommandWord 0b11 a' w')) s ∧
    exec (decode (makeCommandWord 0b01 a w)) s = exec (decode (makeCommandWord 0b01 a w')) s) ∧
  (∃ (s : State) (a a' : RegAddr) (w : Word),
    exec (decode (makeCommandWord 0b01 a w)) s ≠ exec (decode (makeCommandWord 0b01 a' w)) s) ∧
  (∃ (s : State) (a a' : RegAddr) (w : Word),
    exec (decode (makeCommandWord 0b10 a w)) s ≠ exec (decode (makeCommandWord 0b10 a' w)) s) ∧
  (∃ (s : State) (a : RegAddr) (w w' : Word),
    exec (decode (makeCommandWord 0b10 a w)) s ≠ exec (decode (makeCommandWord 0b10 a w')) s)

/-- Words the spec writes out decode to the commands it names (30_encoding.md R78, R79;
95_test_vectors.md 2.4, 2.6, 2.7). -/
def Obligations.WordsOfTheSpecDecode : Prop :=
  decode 0x2140000000 = .wrInc 0x40000000 ∧ decode 0x1400000000 = .rdOut ∧ decode 0x3000000000 = .step ∧
  decode 0x21028DDFB9 = .wrInc 0x028DDFB9 ∧ decode 0x0FFFFFFFFF = .nop ∧ decode 0x11FFFFFFFF = .rdInc ∧
  decode 0x20FFFFFFFE = .wrCtrl 0xFFFFFFFE ∧ decode 0x2200030000 = .wrBlend 0x30000 ∧
  decode 0x23DEADBEEF = .wrPhase 0xDEADBEEF ∧ decode 0x2400001234 = .wrOut 0x1234 ∧
  decode 0x1500000000 = .rdRsvd5 ∧ decode 0x1900000000 = .rdRsvd8_15 0x9 ∧
  decode 0x2700000005 = .wrRsvd6_7 0x7 0x5 ∧ decode 0x2FFFFFFFFF = .wrRsvd8_15 0xF 0xFFFFFFFF

/-- R78: the encoding of each assembler command is the CW of R71 with the ignored fields 0, an immediate in
−2^31 .. 2^32 − 1 taken modulo 2^32; and the rule's three examples. -/
def Obligations.AssembledCommandsEncodeAsWritten : Prop :=
  encode (AsmCommand.assemble .nop) = makeCommandWord 0b00 0 0 ∧
  encode (AsmCommand.assemble .step) = makeCommandWord 0b11 0 0 ∧
  (∀ r : AsmReg, encode (AsmCommand.assemble (.rd r)) = makeCommandWord 0b01 r.address 0) ∧
  (∀ (r : AsmReg) (imm : Int), (AsmCommand.wr r imm).wellFormed = true →
    ∃ w : Word, encode (AsmCommand.assemble (.wr r imm)) = makeCommandWord 0b10 r.address w ∧
      (w.toNat : Int) = (if 0 ≤ imm then imm else imm + 2 ^ 32)) ∧
  (AsmReg.ctrl.address = 0x0 ∧ AsmReg.inc.address = 0x1 ∧ AsmReg.blend.address = 0x2 ∧
    AsmReg.phase.address = 0x3 ∧ AsmReg.out.address = 0x4 ∧ ∀ n, (AsmReg.a n).address = n) ∧
  encode (AsmCommand.assemble (.wr .inc 0x40000000)) = 0x2140000000 ∧
  encode (AsmCommand.assemble (.rd .out)) = 0x1400000000 ∧
  encode (AsmCommand.assemble .step) = 0x3000000000

/-- R79's SETFREQ, SETBLEND and SETPHASE, derived from their formulas: SETFREQ 440 at fs = 44100 is
`WR INC, 0x028DDFB9`, CW 0x21028DDFB9; below fs the stored increment is within half a step of the frequency;
SETBLEND of a factor in [0,1] leaves a code within 2^-17 of it in BLEND; SETPHASE of an angle in [0, 2π) away
from the wrap leaves a phase within half a step of it. That fs is positive is the MODEL'S CHOICE
(notes/assumptions/8.md). -/
def Obligations.PseudoInstructionsSetTheNearestCode : Prop :=
  (Pseudo.setFreq 440).expandsTo 44100 [.wrInc 0x028DDFB9] ∧
  (∀ cs, (Pseudo.setFreq 440).expandsTo 44100 cs → cs.map encode = [0x21028DDFB9]) ∧
  (∀ (fs f : ℝ), 0 < fs → 0 ≤ f → f < fs * (1 - 1 / 2 ^ 33) →
    ∃ w : Word, (Pseudo.setFreq f).expandsTo fs [.wrInc w] ∧
      |(w.toNat : ℝ) * fs / 2 ^ 32 - f| ≤ fs / 2 ^ 33) ∧
  (∀ (fs b : ℝ) (s : State), 0 ≤ b → b ≤ 1 →
    ∃ (w : Word) (t : State), (Pseudo.setBlend b).expandsTo fs [.wrBlend w] ∧ exec (.wrBlend w) s = .next t ∧
      |(t.blend.toNat : ℝ) / 65536 - b| ≤ 1 / 2 ^ 17) ∧
  (∀ (fs θ : ℝ), 0 ≤ θ → θ < 2 * Real.pi * (1 - 1 / 2 ^ 33) →
    ∃ w : Word, (Pseudo.setPhase θ).expandsTo fs [.wrPhase w] ∧
      |2 * Real.pi * (w.toNat : ℝ) / 2 ^ 32 - θ| ≤ 2 * Real.pi / 2 ^ 33)

/-- Derived from R79's reductions: SETFREQ and SETPHASE expand for every real operand, to one command, and two
operands a whole number of sample rates, or of turns, apart expand alike; the stored code is the nearest, up to
such a whole number; so a quarter of the sample rate downwards is 0xC0000000 and the sample rate itself is 0.
SETBLEND leaves the code nearest to the factor clamped to [0, 1]; that a factor whose code does not fit 32-bit
two's complement has no expansion, and that fs is positive, is the MODEL'S CHOICE (notes/assumptions/8.md). -/
def Obligations.PseudoInstructionsReduceAndClamp : Prop :=
  (∀ fs f : ℝ, 0 < fs → ∃ (w : Word) (k : Int),
    (∀ cs, (Pseudo.setFreq f).expandsTo fs cs ↔ cs = [.wrInc w]) ∧
    |(w.toNat : ℝ) * fs / 2 ^ 32 + k * fs - f| ≤ fs / 2 ^ 33) ∧
  (∀ (fs f : ℝ) (k : Int) (cs : List Instr), 0 < fs →
    ((Pseudo.setFreq (f + k * fs)).expandsTo fs cs ↔ (Pseudo.setFreq f).expandsTo fs cs)) ∧
  (∀ fs : ℝ, 0 < fs → (Pseudo.setFreq (-(fs / 4))).expandsTo fs [.wrInc 0xC0000000] ∧
    (Pseudo.setFreq fs).expandsTo fs [.wrInc 0]) ∧
  (∀ fs θ : ℝ, ∃ (w : Word) (k : Int),
    (∀ cs, (Pseudo.setPhase θ).expandsTo fs cs ↔ cs = [.wrPhase w]) ∧
    |2 * Real.pi * (w.toNat : ℝ) / 2 ^ 32 + 2 * Real.pi * k - θ| ≤ 2 * Real.pi / 2 ^ 33) ∧
  (∀ (fs θ : ℝ) (k : Int) (cs : List Instr),
    (Pseudo.setPhase (θ + 2 * Real.pi * k)).expandsTo fs cs ↔ (Pseudo.setPhase θ).expandsTo fs cs) ∧
  (∀ fs b : ℝ, -32768 - 1 / 2 ^ 17 ≤ b → b < 32768 - 1 / 2 ^ 17 →
    ∃ w : Word, (∀ cs, (Pseudo.setBlend b).expandsTo fs cs ↔ cs = [.wrBlend w]) ∧
      ∀ s : State, ∃ t, exec (.wrBlend w) s = .next t ∧
        |(t.blend.toNat : ℝ) / 65536 - min (max b 0) 1| ≤ 1 / 2 ^ 17) ∧
  (∀ (fs b : ℝ) (cs : List Instr), b < -32768 - 1 / 2 ^ 17 ∨ 32768 - 1 / 2 ^ 17 ≤ b →
    ¬(Pseudo.setBlend b).expandsTo fs cs)

/-- Derived from R79's expansions of STEP n, WAIT n, SHAPE TRI, SHAPE SAW and PHASE0, driven into the block: n
STEPs in a row advance the phase n times; n NOPs change only the strobes; SHAPE TRI and SHAPE SAW set SHAPE to 0
and 1; PHASE0 sets ACC to 0. A repeat count of 0 has no expansion. -/
def Obligations.RepeatAndShapePseudoInstructionsRun : Prop :=
  (∀ (fs : ℝ) (cs : List Instr), ¬(Pseudo.stepN 0).expandsTo fs cs ∧ ¬(Pseudo.waitN 0).expandsTo fs cs) ∧
  (∀ (fs : ℝ) (n : Nat), 1 ≤ n →
    (∃ cs, (Pseudo.stepN n).expandsTo fs cs) ∧ (∃ cs, (Pseudo.waitN n).expandsTo fs cs)) ∧
  (∀ (fs : ℝ) (n : Nat) (cs : List Instr) (s : State) (rest : List PortCycle),
    s.port = cs.map (fun i => commandCycle (encode i)) ++ rest →
    ((Pseudo.stepN n).expandsTo fs cs →
      cs.length = n ∧ cs.map encode = List.replicate n 0x3000000000 ∧
      ∃ t, runCycles n s = .next t ∧ t.acc.toNat = (s.acc.toNat + n * s.inc.toNat) % 2 ^ 32 ∧
        t.inc = s.inc ∧ t.blend = s.blend ∧ t.shape = s.shape ∧ t.rdata = s.rdata ∧ t.rdv = false ∧
        t.outv = true ∧ t.port = rest ∧
        (s.blend.toNat ≤ 65536 → t.out.toInt =
          mix (sine t.acc) (if s.shape = 0 then triangle t.acc else saw t.acc) s.blend.toNat)) ∧
    ((Pseudo.waitN n).expandsTo fs cs →
      cs.map encode = List.replicate n 0 ∧
      runCycles n s = .next { s with rdv := false, outv := false, port := rest })) ∧
  (∀ (fs : ℝ) (cs : List Instr) (s : State) (rest : List PortCycle),
    s.port = cs.map (fun i => commandCycle (encode i)) ++ rest →
    (Pseudo.shapeTri.expandsTo fs cs →
      cs.map encode = [0x2000000000] ∧
      runCycles 1 s = .next { s with shape := 0, rdv := false, outv := false, port := rest }) ∧
    (Pseudo.shapeSaw.expandsTo fs cs →
      cs.map encode = [0x2000000001] ∧
      runCycles 1 s = .next { s with shape := 1, rdv := false, outv := false, port := rest }) ∧
    (Pseudo.phase0.expandsTo fs cs →
      cs.map encode = [0x2300000000] ∧
      runCycles 1 s = .next { s with acc := 0, rdv := false, outv := false, port := rest })) ∧
  (∀ fs : ℝ, ∃ cs cs' cs'', Pseudo.shapeTri.expandsTo fs cs ∧ Pseudo.shapeSaw.expandsTo fs cs' ∧
    Pseudo.phase0.expandsTo fs cs'')

/-! ### The clock cycle -/

/-- A step runs the decoded command: when the coming cycle carries a valid command word without reset, the
step is exec of the command that word decodes to, in the state with that cycle taken off the host's list
(30_encoding.md R70, R71). The list is the model's own (notes/assumptions/1.md). -/
def Obligations.StepRunsTheDecodedCommand : Prop :=
  ∀ (s : State) (p : PortInputs) (rest : List PortCycle) (i : Instr),
    s.port = .sampled p :: rest → p.rst = false → p.cmdValid = true →
    decode (makeCommandWord p.cmdOp p.cmdAddr p.cmdWdata) = i → i.wellFormed = true →
    step s = exec i (s.setPort rest)

/-- When the host's list is over, the coming cycle is idle and its step is a NOP. MODEL'S CHOICE
(notes/assumptions/2.md), beside 70_reset_and_hazards.md R220. -/
def Obligations.AfterTheLastListedCycleTheHostIsIdle : Prop :=
  ∀ s : State, s.port = [] → step s = .next { s with rdv := false, outv := false }

/-- R210: every cycle with rst = 1 leaves every register at its reset value, however many follow each other,
whatever else the ports carry and whatever the state was, before the first reset too. -/
def Obligations.ResetHeldClearsEveryRegister : Prop :=
  ∀ (s : State) (p : PortInputs) (ps : List PortInputs) (rest : List PortCycle),
    (∀ q ∈ p :: ps, q.rst = true) → s.port = (p :: ps).map PortCycle.sampled ++ rest →
    runCycles (p :: ps).length s =
      .next { acc := 0, inc := 0, blend := 0, shape := 0, out := 0, rdata := 0, rdv := false, outv := false,
              port := rest }

/-- R211: reset wins over a command of the same cycle: no READ data, no advance, no WRITE, no later retry; the
cycle is the same as one with rst = 1 and no command. -/
def Obligations.ResetDiscardsTheCommand : Prop :=
  ∀ (s : State) (p : PortInputs) (rest : List PortCycle),
    p.rst = true → p.cmdValid = true → s.port = .sampled p :: rest →
    step s = step (s.setPort (.sampled { p with cmdValid := false } :: rest)) ∧
    ∃ t, step s = .next t ∧ t.rdv = false ∧ t.rdata = 0 ∧ t.outv = false ∧ t.acc = 0 ∧ t.inc = 0 ∧
      t.blend = 0 ∧ t.shape = 0 ∧ t.port = rest

/-- Derived from 70_reset_and_hazards.md R213: after a reset cycle, as long as no WRITE comes, every cycle
leaves the phase at 0 and the output silent. -/
def Obligations.SilenceAfterResetUntilAWrite : Prop :=
  ∀ (s : State) (r : PortInputs) (ps : List PortInputs) (rest : List PortCycle),
    r.rst = true → (∀ p ∈ ps, p.rst = true ∨ p.cmdValid = false ∨ p.cmdOp ≠ 0b10) →
    s.port = .sampled r :: ps.map PortCycle.sampled ++ rest →
    ∃ t, runCycles (ps.length + 1) s = .next t ∧ t.acc = 0 ∧ t.inc = 0 ∧ t.blend = 0 ∧ t.shape = 0 ∧ t.out = 0 ∧
      t.port = rest

/-- R190: no command and no sequence of cycles traps, halts, stalls or refuses: every command answers a next
state, and every cycle with sampled inputs completes. -/
def Obligations.NothingTrapsHaltsStallsOrRefuses : Prop :=
  (∀ (i : Instr) (s : State), ∃ t, exec i s = .next t ∧ t.port = s.port) ∧
  (∀ (s : State) (ps : List PortInputs) (rest : List PortCycle),
    s.port = ps.map PortCycle.sampled ++ rest → ∃ t, runCycles ps.length s = .next t ∧ t.port = rest)

/-- A cycle whose inputs are undefined, whose reset is not sampled at the edge or in which power is lost is
refused by name (93_implementation_defined.md I6, I7, I13: refuse; notes/assumptions/6.md). -/
def Obligations.DisturbedCycleIsRefused : Prop :=
  ∀ (s : State) (d : Disturbance) (rest : List PortCycle),
    s.port = .disturbed d :: rest → step s = .refused (.disturbed d)

/-- Derived from 20_memory.md R59: commands take effect in order, one a cycle; a run is its first cycles and
then the rest, and what the host drives later changes nothing earlier. -/
def Obligations.LaterCyclesChangeNothingEarlier : Prop :=
  (∀ (m n : Nat) (s t : State), runCycles m s = .next t → runCycles (m + n) s = runCycles n t) ∧
  (∀ (s : State) (ps : List PortInputs) (l l' : List PortCycle),
    ∃ t : State, runCycles ps.length (s.setPort (ps.map PortCycle.sampled ++ l)) = .next (t.setPort l) ∧
      runCycles ps.length (s.setPort (ps.map PortCycle.sampled ++ l')) = .next (t.setPort l'))

/-- Derived from 70_reset_and_hazards.md R214: a command sees the effect of the command in the cycle before it.
For every two command words in consecutive cycles the second runs in the state the first left, at once; and the
rule's three examples. -/
def Obligations.BackToBackCommandsSeeEachOther : Prop :=
  (∀ (s : State) (c d : CommandWord) (rest : List PortCycle),
    s.port = commandCycle c :: commandCycle d :: rest →
    ∃ t u, exec (decode c) (s.setPort (commandCycle d :: rest)) = .next t ∧
      exec (decode d) (t.setPort rest) = .next u ∧ runCycles 2 s = .next u) ∧
  (∀ (s : State) (x : Word) (a : RegAddr) (w : Word) (rest : List PortCycle),
    s.port = commandCycle (makeCommandWord 0b10 0x1 x) :: commandCycle (makeCommandWord 0b11 a w) :: rest →
    ∃ t, runCycles 2 s = .next t ∧ t.acc = s.acc + x) ∧
  (∀ (s : State) (a : RegAddr) (w w' : Word) (rest : List PortCycle),
    s.port = commandCycle (makeCommandWord 0b11 a w) :: commandCycle (makeCommandWord 0b01 0x4 w') :: rest →
    ∃ t u, runCycles 1 s = .next t ∧ runCycles 2 s = .next u ∧ u.rdata.toInt = t.out.toInt) ∧
  (∀ (s : State) (x w : Word) (rest : List PortCycle),
    s.port = commandCycle (makeCommandWord 0b10 0x2 x) :: commandCycle (makeCommandWord 0b01 0x2 w) :: rest →
    ∃ t, runCycles 2 s = .next t ∧ (t.rdata.toNat : Int) = min (max x.toInt 0) 65536)

/-! ### STEP and NOP -/

/-- R100: STEP's effect with everything it leaves alone, its encoding, its corner cases and its example. -/
def Obligations.StepAdvancesThenBlends : Prop :=
  (∀ s : State, s.blend.toNat ≤ 65536 →
    exec .step s = .next { s with
      acc := s.acc + s.inc
      out := BitVec.ofInt 16 (mix (sine (s.acc + s.inc))
        (if s.shape = 0 then triangle (s.acc + s.inc) else saw (s.acc + s.inc)) s.blend.toNat)
      outv := true
      rdv := false }) ∧
  (∀ (a : RegAddr) (w : Word), decode (makeCommandWord 0b11 a w) = .step) ∧
  (∀ s : State, s.inc = 0 → ∃ t, exec .step s = .next t ∧ t.acc = s.acc) ∧
  (∃ t, exec .step State.reset = .next t ∧ t.acc = 0 ∧ t.out = 0) ∧
  (∀ s : State, s.inc = 0x80000000 →
    ∃ t u, exec .step s = .next t ∧ exec .step t = .next u ∧ t.acc = s.acc + 0x80000000 ∧ t.acc ≠ s.acc ∧
      u.acc = s.acc) ∧
  (∀ s : State, ∃ t, exec .step s = .next t ∧ t.acc.toNat = (s.acc.toNat + s.inc.toNat) % 2 ^ 32) ∧
  (∀ s : State, s.blend = 0 → ∃ t, exec .step s = .next t ∧ t.out.toInt = sine t.acc) ∧
  (∀ s : State, s.blend.toNat = 65536 →
    ∃ t, exec .step s = .next t ∧ t.out.toInt = if s.shape = 0 then triangle t.acc else saw t.acc) ∧
  (∀ s : State, s.acc = 0 → s.inc = 0x40000000 → s.blend = 0 → s.shape = 0 →
    ∃ t, exec .step s = .next t ∧ t.acc = 0x40000000 ∧ t.out.toInt = 32767)

/-- STEP with a blend code above 65536, possible only before the first reset: it runs, everything else is as
R100 says, and OUT takes the free value. MODEL'S CHOICE (notes/assumptions/5.md); it holds for every value. -/
def Obligations.StepBeyondTheLargestBlendCodeRuns : Prop :=
  ∀ s : State, 65536 < s.blend.toNat →
    exec .step s = .next { s with
      acc := s.acc + s.inc, out := Config.outBeyondOne s.acc s.inc s.blend s.shape, outv := true, rdv := false }

/-- R101: the advance is addition modulo 2^32, and the phase stays in [0, 2π). -/
def Obligations.PhaseAdvanceWrapsModulo : Prop :=
  ∀ s : State, ∃ t, exec .step s = .next t ∧ t.acc.toNat = (s.acc.toNat + s.inc.toNat) % 2 ^ 32 ∧
    0 ≤ 2 * Real.pi * (t.acc.toNat : ℝ) / 2 ^ 32 ∧ 2 * Real.pi * (t.acc.toNat : ℝ) / 2 ^ 32 < 2 * Real.pi

/-- R102: STEP evaluates at the advanced phase: the n-th STEP after a write of ACC = p outputs the waveform at
p + n·INC modulo 2^32, so the first after `WR PHASE, 0` outputs the waveform at INC. -/
def Obligations.NthStepEvaluatesAtAdvancedPhase : Prop :=
  (∀ (s : State) (p : Word) (n : Nat) (rest : List PortCycle),
    s.blend.toNat ≤ 65536 →
    s.port = commandCycle (encode (.wrPhase p)) :: List.replicate (n + 1) (commandCycle (encode .step)) ++ rest →
    ∃ t, runCycles (n + 2) s = .next t ∧ t.port = rest ∧
      t.acc.toNat = (p.toNat + (n + 1) * s.inc.toNat) % 2 ^ 32 ∧
      t.out.toInt = mix (sine t.acc) (if s.shape = 0 then triangle t.acc else saw t.acc) s.blend.toNat) ∧
  (∀ (s : State) (rest : List PortCycle),
    s.blend.toNat ≤ 65536 →
    s.port = commandCycle (encode (.wrPhase 0)) :: commandCycle (encode .step) :: rest →
    ∃ t, runCycles 2 s = .next t ∧ t.acc = s.inc ∧
      t.out.toInt = mix (sine s.inc) (if s.shape = 0 then triangle s.inc else saw s.inc) s.blend.toNat)

/-- R103: each of the 257 entries is 32767·sin(π·k/512) rounded to the nearest integer, no value within
0.0012 of a tie; the three values the rule names, strict growth, and the checksum. -/
def Obligations.QuarterTableIsTheRoundedSine : Prop :=
  (∀ k : Nat, k ≤ 256 →
    |(quarterSine k : ℝ) - 32767 * Real.sin (Real.pi * k / 512)| ≤ 1 / 2 - 0.0012) ∧
  quarterSine 0 = 0 ∧ quarterSine 128 = 23170 ∧ quarterSine 256 = 32767 ∧
  (∀ k : Nat, k < 256 → quarterSine k < quarterSine (k + 1)) ∧
  ((List.range 257).map quarterSine).sum = 5356550

/-- R104: the full cycle is built from the quarter by symmetry and is the rounded sine at every index. -/
def Obligations.FullCycleTableIsTheRoundedSine : Prop :=
  (∀ j : Nat, j < 256 →
    slut (BitVec.ofNat 10 j) = quarterSine j ∧ slut (BitVec.ofNat 10 (256 + j)) = quarterSine (256 - j) ∧
    slut (BitVec.ofNat 10 (512 + j)) = -quarterSine j ∧
    slut (BitVec.ofNat 10 (768 + j)) = -quarterSine (256 - j)) ∧
  (∀ i : BitVec 10, |(slut i : ℝ) - 32767 * Real.sin (2 * Real.pi * i.toNat / 1024)| < 1 / 2) ∧
  slut 0 = 0 ∧ slut 256 = 32767 ∧ slut 512 = 0 ∧ slut 768 = -32767 ∧
  (∀ i : BitVec 10, -32767 ≤ slut i ∧ slut i ≤ 32767)

/-- Derived from R105: SINE interpolates between adjacent entries, rounded to the nearest integer with a tie
toward +∞; the bounds it states; acc[9:0] has no effect; oddness fails exactly at the ties of the rounding,
as at 0x00200000. -/
def Obligations.SineInterpolatesAdjacentEntries : Prop :=
  (∀ (i f low : Nat), i < 1024 → f < 4096 → low < 1024 →
    let s0 := slut (BitVec.ofNat 10 i)
    let s1 := slut (BitVec.ofNat 10 ((i + 1) % 1024))
    let y := sine (BitVec.ofNat 32 (i * 2 ^ 22 + f * 2 ^ 10 + low))
    |s1 - s0| ≤ 201 ∧
    -2048 < 4096 * (y - s0) - (s1 - s0) * f ∧ 4096 * (y - s0) - (s1 - s0) * f ≤ 2048 ∧
    min s0 s1 ≤ y ∧ y ≤ max s0 s1 ∧ -32767 ≤ y ∧ y ≤ 32767 ∧ (f = 0 → y = s0) ∧
    (sine (BitVec.ofNat 32 (i * 2 ^ 22 + f * 2 ^ 10 + low) + 0x80000000) ≠ -y ↔
      (s1 - s0) * f % 4096 = 2048)) ∧
  sine 0x00200000 = 101 ∧ sine 0x80200000 = -100

/-- Derived from R105: of the 2^22 phases with acc[9:0] = 0, SINE(acc + 2^31) = −SINE(acc) fails at 3324. -/
def Obligations.SineOddnessFailsAt3324Phases : Prop :=
  ((Finset.range (2 ^ 22)).filter (fun n =>
    sine (BitVec.ofNat 32 (n * 1024) + 0x80000000) ≠ -sine (BitVec.ofNat 32 (n * 1024)))).card = 3324

/-- R106: the triangle's three cases, its range, its one saturated point, its exact trough, its independence
of acc[15:0], and its closed form away from the peak. -/
def Obligations.TriangleIsTheSineAlignedTriangle : Prop :=
  (∀ (v low : Nat), v < 65536 → low < 65536 →
    let y := triangle (BitVec.ofNat 32 (v * 65536 + low))
    (v < 0x4000 → y = 2 * v ∧ 0 ≤ y ∧ y ≤ 32766) ∧
    (0x4000 ≤ v → v < 0xC000 → y = min (65536 - 2 * (v : Int)) 32767 ∧ -32766 ≤ y ∧ y ≤ 32767) ∧
    (0xC000 ≤ v → y = 2 * (v : Int) - 131072 ∧ -32768 ≤ y ∧ y ≤ -2) ∧
    -32768 ≤ y ∧ y ≤ 32767 ∧
    (v = 0x4000 → y = 32767) ∧ (v = 0xC000 → y = -32768) ∧
    (v ≠ 0x4000 →
      (y : ℝ) = 32768 * (2 / Real.pi) * Real.arcsin (Real.sin (2 * Real.pi * v / 65536)))) ∧
  32768 * (2 / Real.pi) * Real.arcsin (Real.sin (2 * Real.pi * 0x4000 / 65536)) = 32768

/-- R107: the saw is the top half of the phase as a two's-complement number: its values, its rise, its jump at
π, its range, its independence of acc[15:0], and its closed form. -/
def Obligations.SawIsTheSignedTopHalfOfThePhase : Prop :=
  ∀ (v low : Nat), v < 65536 → low < 65536 →
    let y := saw (BitVec.ofNat 32 (v * 65536 + low))
    y = (BitVec.ofNat 16 v).toInt ∧
    (v < 0x8000 → y = v) ∧ (0x8000 ≤ v → y = (v : Int) - 65536) ∧
    (v = 0 → y = 0) ∧ (v = 0x7FFF → y = 32767) ∧ (v = 0x8000 → y = -32768) ∧ (v = 0xFFFF → y = -1) ∧
    -32768 ≤ y ∧ y ≤ 32767 ∧
    (y : ℝ) = 32768 * (2 * Int.fract ((2 * Real.pi * v / 65536) / (2 * Real.pi) + 1 / 2) - 1)

/-- R108: SHAPE selects the second waveform, computed from the same advanced phase as the sine. -/
def Obligations.ShapeSelectsTheSecondWaveform : Prop :=
  ∀ s : State, s.blend.toNat ≤ 65536 →
    ∃ t, exec .step s = .next t ∧ t.acc = s.acc + s.inc ∧
      (s.shape = 0 → t.out.toInt = mix (sine t.acc) (triangle t.acc) s.blend.toNat) ∧
      (s.shape = 1 → t.out.toInt = mix (sine t.acc) (saw t.acc) s.blend.toNat)

/-- R109: MIX of 16-bit signed s and a at a code of 0..65536: its formula, the bound on p, rounding to the
nearest integer with a tie toward +∞, both ends exact, and the result between s and a, so within 16 bits. -/
def Obligations.MixRoundsTheLinearBlend : Prop :=
  ∀ (s a : Int) (B : Nat), -32768 ≤ s → s ≤ 32767 → -32768 ≤ a → a ≤ 32767 → B ≤ 65536 →
    let p := s * (65536 - (B : Int)) + a * B
    |p| ≤ 2 ^ 31 ∧ mix s a B = ⌊((p + 32768 : Int) : ℚ) / 65536⌋ ∧
    -(1 / 2) < (mix s a B : ℚ) - ((1 - (B : ℚ) / 65536) * s + (B : ℚ) / 65536 * a) ∧
    (mix s a B : ℚ) - ((1 - (B : ℚ) / 65536) * s + (B : ℚ) / 65536 * a) ≤ 1 / 2 ∧
    mix s a 0 = s ∧ mix s a 65536 = a ∧
    min s a ≤ mix s a B ∧ mix s a B ≤ max s a ∧ -32768 ≤ mix s a B ∧ mix s a B ≤ 32767

/-- R110: every sample STEP produces is the exact blended integer, neither saturated nor wrapped (the
triangle's peak apart, which MIX takes already saturated), and the ranges the rule gives per case. -/
def Obligations.EverySampleFitsSixteenBits : Prop :=
  ∀ s : State, s.blend.toNat ≤ 65536 →
    ∃ t, exec .step s = .next t ∧
      t.out.toInt = mix (sine t.acc) (if s.shape = 0 then triangle t.acc else saw t.acc) s.blend.toNat ∧
      -32768 ≤ t.out.toInt ∧ t.out.toInt ≤ 32767 ∧
      (s.blend = 0 → -32767 ≤ t.out.toInt ∧ t.out.toInt ≤ 32767) ∧
      (s.shape = 0 → s.blend.toNat = 65536 → t.out.toInt = triangle t.acc ∧ -32768 ≤ t.out.toInt ∧
        t.out.toInt ≤ 32767) ∧
      (s.shape = 1 → s.blend.toNat = 65536 → t.out.toInt = saw t.acc ∧ -32768 ≤ t.out.toInt ∧
        t.out.toInt ≤ 32767)

/-- Derived from R103 to R105, with a bound of 1.25 where R111 computes 1.11: the fixed-point sine tracks the
real sine at every 32-bit phase. -/
def Obligations.SineTracksTheRealSine : Prop :=
  ∀ acc : Word,
    |(sine acc : ℝ) - 32767 * Real.sin (2 * Real.pi * (acc.toNat : ℝ) / 2 ^ 32)| ≤ 5 / 4

/-- Derived from 00_scope.md R2 and R101 to R111: STEP realises the source's oscStep. The phase advances by
2π·INC/2^32 modulo 2π, and the sample is within 2.5 units of the real-valued blend, at b = BLEND/65536, of
the sine (amplitude 32767) and the triangle or the saw (amplitude 32768) at the new phase. -/
def Obligations.StepRealisesTheReferenceOscillator : Prop :=
  ∀ s : State, s.blend.toNat ≤ 65536 →
    ∃ t, exec .step s = .next t ∧
      (∃ k : Int, 2 * Real.pi * (t.acc.toNat : ℝ) / 2 ^ 32 =
        2 * Real.pi * (s.acc.toNat : ℝ) / 2 ^ 32 + 2 * Real.pi * (s.inc.toNat : ℝ) / 2 ^ 32 - 2 * Real.pi * k) ∧
      ∀ (φ b alt : ℝ), φ = 2 * Real.pi * (t.acc.toNat : ℝ) / 2 ^ 32 → b = (s.blend.toNat : ℝ) / 65536 →
        alt = (if s.shape = 0 then 2 / Real.pi * Real.arcsin (Real.sin φ)
               else 2 * Int.fract (φ / (2 * Real.pi) + 1 / 2) - 1) →
        |(t.out.toInt : ℝ) - ((1 - b) * (32767 * Real.sin φ) + b * (32768 * alt))| ≤ 5 / 2

/-- R112: NOP's effect with everything it leaves alone, its encoding, the cycle with cmd_valid = 0, any number
of NOPs in a row, and its example. -/
def Obligations.NopClearsOnlyTheStrobes : Prop :=
  (∀ s : State, exec .nop s = .next { s with rdv := false, outv := false }) ∧
  (∀ (a : RegAddr) (w : Word), decode (makeCommandWord 0b00 a w) = .nop) ∧
  (∀ (s : State) (p : PortInputs) (ps : List PortInputs) (rest : List PortCycle),
    (∀ q ∈ p :: ps, q.rst = false ∧ (q.cmdValid = false ∨ q.cmdOp = 0b00)) →
    s.port = (p :: ps).map PortCycle.sampled ++ rest →
    runCycles (p :: ps).length s = .next { s with rdv := false, outv := false, port := rest }) ∧
  (∀ s t : State, exec .step s = .next t →
    t.outv = true ∧ exec .nop t = .next { t with outv := false })

/-! ### READ -/

/-- R150: READ at every address: RDATA, RDV and OUTV and nothing else; its encoding; a reserved address gives 0;
a READ after a WRITE gives the value written (the clamped one), after a STEP the STEP's results; the data is on
the port in the next cycle; its example. -/
def Obligations.ReadReturnsTheAddressedRegister : Prop :=
  (∀ (a : RegAddr) (w : Word) (s : State),
    exec (decode (makeCommandWord 0b01 a w)) s =
      .next { s with rdata := regRead a s, rdv := true, outv := false }) ∧
  (∀ (a : RegAddr) (s : State), 5 ≤ a.toNat → regRead a s = 0) ∧
  (∀ (a : RegAddr) (w w' : Word) (s t u : State),
    exec (decode (makeCommandWord 0b10 a w)) s = .next t → exec (decode (makeCommandWord 0b01 a w')) t = .next u →
    (a = 0x0 → u.rdata.toNat = w.toNat % 2) ∧ (a = 0x1 → u.rdata = w) ∧
    (a = 0x2 → (u.rdata.toNat : Int) = min (max w.toInt 0) 65536) ∧ (a = 0x3 → u.rdata = w) ∧
    (a = 0x4 → u.rdata.toInt = s.out.toInt) ∧ (5 ≤ a.toNat → u.rdata = 0)) ∧
  (∀ s t : State, exec .step s = .next t →
    (∃ u, exec .rdPhase t = .next u ∧ u.rdata = s.acc + s.inc) ∧
    (∃ u, exec .rdOut t = .next u ∧ u.rdata.toInt = t.out.toInt)) ∧
  (∀ (a : RegAddr) (w : Word) (s : State) (rest : List PortCycle),
    s.port = commandCycle (makeCommandWord 0b01 a w) :: rest →
    ∃ t, step s = .next t ∧ (outputPorts t).rdData = regRead a s ∧ (outputPorts t).rdValid = true) ∧
  (∀ s : State, s.inc = 0x40000000 →
    ∃ t, exec (decode 0x1100000000) s = .next t ∧ t.rdata = 0x40000000 ∧ t.rdv = true)

/-- R151: RD_CTRL returns SHAPE zero-extended. -/
def Obligations.RdCtrlReturnsShape : Prop :=
  (∀ s : State, ∃ t, exec .rdCtrl s = .next t ∧ t = { s with rdata := t.rdata, rdv := true, outv := false } ∧
    t.rdata.toNat = s.shape.toNat ∧ ∀ k, 1 ≤ k → t.rdata.getLsbD k = false) ∧
  (∀ w : Word, decode (makeCommandWord 0b01 0x0 w) = .rdCtrl) ∧ encode .rdCtrl = 0x1000000000 ∧
  (∀ s t : State, exec (.wrCtrl 0xFFFFFFFF) s = .next t → ∃ u, exec .rdCtrl t = .next u ∧ u.rdata = 0x00000001) ∧
  (∃ t, exec .rdCtrl State.reset = .next t ∧ t.rdata = 0x00000000)

/-- R152: RD_INC returns INC unchanged. -/
def Obligations.RdIncReturnsInc : Prop :=
  (∀ s : State, exec .rdInc s = .next { s with rdata := s.inc, rdv := true, outv := false }) ∧
  (∀ w : Word, decode (makeCommandWord 0b01 0x1 w) = .rdInc) ∧ encode .rdInc = 0x1100000000 ∧
  (∀ (s t : State) (w : Word), exec (.wrInc w) s = .next t → ∃ u, exec .rdInc t = .next u ∧ u.rdata = w) ∧
  (∀ (s t : State) (cs : List Instr), (Pseudo.setFreq 440).expandsTo 44100 cs →
    ∃ i, cs = [i] ∧ (exec i s = .next t → ∃ u, exec .rdInc t = .next u ∧ u.rdata = 0x028DDFB9))

/-- R153: RD_BLEND returns BLEND zero-extended, in 0x00000000..0x00010000. -/
def Obligations.RdBlendReturnsTheBlendCode : Prop :=
  (∀ s : State, ∃ t, exec .rdBlend s = .next t ∧ t = { s with rdata := t.rdata, rdv := true, outv := false } ∧
    t.rdata.toNat = s.blend.toNat ∧ (∀ k, 17 ≤ k → t.rdata.getLsbD k = false) ∧
    (s.blend.toNat ≤ 65536 → t.rdata.toNat ≤ 0x00010000)) ∧
  (∀ w : Word, decode (makeCommandWord 0b01 0x2 w) = .rdBlend) ∧ encode .rdBlend = 0x1200000000 ∧
  (∀ s t : State, exec (.wrBlend 0x00030000) s = .next t →
    ∃ u, exec .rdBlend t = .next u ∧ u.rdata = 0x00010000) ∧
  (∀ s t : State, exec (.wrBlend 0x8000) s = .next t → ∃ u, exec .rdBlend t = .next u ∧ u.rdata = 0x00008000)

/-- R154: RD_PHASE returns ACC: after a STEP, the phase the sample was computed from. -/
def Obligations.RdPhaseReturnsThePhase : Prop :=
  (∀ s : State, exec .rdPhase s = .next { s with rdata := s.acc, rdv := true, outv := false }) ∧
  (∀ w : Word, decode (makeCommandWord 0b01 0x3 w) = .rdPhase) ∧ encode .rdPhase = 0x1300000000 ∧
  (∀ s t : State, s.blend.toNat ≤ 65536 → exec .step s = .next t →
    ∃ u, exec .rdPhase t = .next u ∧
      u.out.toInt = mix (sine u.rdata) (if u.shape = 0 then triangle u.rdata else saw u.rdata) u.blend.toNat) ∧
  (∀ (s t : State) (w : Word), exec (.wrPhase w) s = .next t → ∃ u, exec .rdPhase t = .next u ∧ u.rdata = w) ∧
  (∀ t u : State, exec (.wrInc 0x40000000) State.reset = .next t → exec .step t = .next u →
    ∃ v, exec .rdPhase u = .next v ∧ v.rdata = 0x40000000)

/-- R155: RD_OUT returns OUT sign-extended. -/
def Obligations.RdOutReturnsTheSampleSignExtended : Prop :=
  (∀ s : State, ∃ t, exec .rdOut s = .next t ∧ t = { s with rdata := t.rdata, rdv := true, outv := false } ∧
    t.rdata.toInt = s.out.toInt ∧
    (s.out.toInt < 0 → ∀ k, 16 ≤ k → k < 32 → t.rdata.getLsbD k = true)) ∧
  (∀ w : Word, decode (makeCommandWord 0b01 0x4 w) = .rdOut) ∧ encode .rdOut = 0x1400000000 ∧
  (∀ s : State, s.out.toInt = -18556 → ∃ t, exec .rdOut s = .next t ∧ t.rdata = 0xFFFFB784) ∧
  (∀ s t : State, exec .step s = .next t → t.out.toInt = 32767 →
    ∃ u, exec .rdOut t = .next u ∧ u.rdata = 0x00007FFF)

/-- R156: a READ of an address from 0x5 to 0xF returns 0 and raises RDV, whatever the state. -/
def Obligations.ReservedReadReturnsZero : Prop :=
  (∀ s : State, exec .rdRsvd5 s = .next { s with rdata := 0, rdv := true, outv := false }) ∧
  (∀ (s : State) (a : RegAddr), (Instr.rdRsvd6_7 a).wellFormed = true →
    exec (.rdRsvd6_7 a) s = .next { s with rdata := 0, rdv := true, outv := false }) ∧
  (∀ (s : State) (a : RegAddr), (Instr.rdRsvd8_15 a).wellFormed = true →
    exec (.rdRsvd8_15 a) s = .next { s with rdata := 0, rdv := true, outv := false }) ∧
  (∀ (a : RegAddr) (w : Word), 5 ≤ a.toNat →
    decode (makeCommandWord 0b01 a w) =
      if a.toNat = 5 then .rdRsvd5 else if a.toNat ≤ 7 then .rdRsvd6_7 a else .rdRsvd8_15 a) ∧
  (∀ s : State, ∃ t, exec (decode 0x1900000000) s = .next t ∧ t.rdata = 0x00000000 ∧ t.rdv = true)

/-! ### WRITE -/

/-- R157: WRITE at every address: the addressed register's write effect, RDV and OUTV, and nothing else: OUT
and RDATA stay, and what a READ returns at any other address stays; the last of two WRITEs to one register
stands; its example. -/
def Obligations.WriteChangesOnlyItsTarget : Prop :=
  (∀ (a : RegAddr) (w : Word) (s : State), ∃ t,
    exec (decode (makeCommandWord 0b10 a w)) s = .next t ∧
    t = { regWrite a w s with rdv := false, outv := false } ∧ t.out = s.out ∧ t.rdata = s.rdata ∧
    t.port = s.port ∧ (∀ b : RegAddr, b ≠ a → regRead b t = regRead b s) ∧
    (4 ≤ a.toNat → t = { s with rdv := false, outv := false })) ∧
  (∀ (a : RegAddr) (w w' : Word) (s t u : State),
    exec (decode (makeCommandWord 0b10 a w)) s = .next t → exec (decode (makeCommandWord 0b10 a w')) t = .next u →
    exec (decode (makeCommandWord 0b10 a w')) s = .next u) ∧
  (∀ s : State, exec (decode 0x2140000000) s = .next { s with inc := 0x40000000, rdv := false, outv := false })

/-- R158: WR_CTRL takes SHAPE from bit 0; the phase and OUT stay until the next STEP, which uses the new SHAPE. -/
def Obligations.WrCtrlSetsShapeFromBitZero : Prop :=
  (∀ (s : State) (w : Word), ∃ t, exec (.wrCtrl w) s = .next t ∧
    t = { s with shape := t.shape, rdv := false, outv := false } ∧ t.shape.toNat = w.toNat % 2) ∧
  (∀ w : Word, decode (makeCommandWord 0b10 0x0 w) = .wrCtrl w) ∧
  (∀ s : State, ∃ t, exec (.wrCtrl 0xFFFFFFFE) s = .next t ∧ t.shape = 0) ∧
  (∀ (s : State) (w : Word), s.blend.toNat ≤ 65536 →
    ∃ t u, exec (.wrCtrl w) s = .next t ∧ t.acc = s.acc ∧ t.out = s.out ∧ exec .step t = .next u ∧
      u.out.toInt = mix (sine (s.acc + s.inc))
        (if w.toNat % 2 = 0 then triangle (s.acc + s.inc) else saw (s.acc + s.inc)) s.blend.toNat) ∧
  (∀ s : State, ∃ t, exec (.wrCtrl 1) s = .next t ∧ t.shape = 1)

/-- R159: WR_INC stores every 32-bit value and leaves ACC; 0 stops the phase; 0x80000000 is half a cycle a STEP;
above it the frequency is the alias (w − 2^32)·fs/2^32, a step backwards; and `WR INC, 0x028DDFB9` sets 440 Hz
at fs = 44100. -/
def Obligations.WrIncStoresEveryValue : Prop :=
  (∀ (s : State) (w : Word), exec (.wrInc w) s = .next { s with inc := w, rdv := false, outv := false }) ∧
  (∀ w : Word, decode (makeCommandWord 0b10 0x1 w) = .wrInc w) ∧
  (∀ s t : State, exec (.wrInc 0) s = .next t → ∃ u, exec .step t = .next u ∧ u.acc = s.acc) ∧
  (∀ s t : State, exec (.wrInc 0x80000000) s = .next t →
    ∃ u, exec .step t = .next u ∧ u.acc = s.acc + 0x80000000) ∧
  (∀ (s t : State) (w : Word), 2 ^ 31 ≤ w.toNat → exec (.wrInc w) s = .next t →
    ∃ u, exec .step t = .next u ∧ (u.acc.toNat : Int) = (s.acc.toNat + (w.toNat - 2 ^ 32 : Int)) % 2 ^ 32) ∧
  (Pseudo.setFreq 440).expandsTo 44100 [.wrInc 0x028DDFB9]

/-- R160: WR_BLEND stores clamp(signed(w), 0, 65536), with the rule's eight corner cases and its example. -/
def Obligations.WrBlendClampsTheSignedWord : Prop :=
  (∀ (s : State) (w : Word), ∃ t, exec (.wrBlend w) s = .next t ∧
    t = { s with blend := t.blend, rdv := false, outv := false } ∧
    (t.blend.toNat : Int) = min (max w.toInt 0) 65536) ∧
  (∀ w : Word, decode (makeCommandWord 0b10 0x2 w) = .wrBlend w) ∧
  (∀ (s : State) (w : Word) (v : BlendCode),
    (w, v) ∈ [((0x00000000 : Word), (0 : BlendCode)), (0x00008000, 0x08000), (0x0000FFFF, 0x0FFFF),
      (0x00010000, 0x10000), (0x00010001, 0x10000), (0x7FFFFFFF, 0x10000), (0x80000000, 0), (0xFFFFFFFF, 0)] →
    exec (.wrBlend w) s = .next { s with blend := v, rdv := false, outv := false }) ∧
  (∀ fs : ℝ, ∃ w, (Pseudo.setBlend (1 / 4)).expandsTo fs [.wrBlend w] ∧ w = 16384 ∧
    ∀ s : State, ∃ t, exec (.wrBlend w) s = .next t ∧ t.blend = 0x04000)

/-- R161: WR_PHASE stores every 32-bit value in ACC and leaves OUT; the next STEP evaluates at w + INC. -/
def Obligations.WrPhaseSetsTheAccumulator : Prop :=
  (∀ (s : State) (w : Word), exec (.wrPhase w) s = .next { s with acc := w, rdv := false, outv := false }) ∧
  (∀ w : Word, decode (makeCommandWord 0b10 0x3 w) = .wrPhase w) ∧
  (∀ (s t : State) (w : Word), s.blend.toNat ≤ 65536 → exec (.wrPhase w) s = .next t →
    t.out = s.out ∧ ∃ u, exec .step t = .next u ∧ u.acc = w + s.inc ∧
      u.out.toInt = mix (sine (w + s.inc))
        (if s.shape = 0 then triangle (w + s.inc) else saw (w + s.inc)) s.blend.toNat) ∧
  (∀ fs : ℝ, Pseudo.phase0.expandsTo fs [.wrPhase 0]) ∧
  (∀ s t : State, exec (.wrPhase 0x70000000) s = .next t →
    ∃ u, exec .rdPhase t = .next u ∧ u.rdata = 0x70000000)

/-- R162: WR_OUT does nothing to any register; OUT keeps the last sample. -/
def Obligations.WrOutIsIgnored : Prop :=
  (∀ (s : State) (w : Word), exec (.wrOut w) s = .next { s with rdv := false, outv := false }) ∧
  (∀ w : Word, decode (makeCommandWord 0b10 0x4 w) = .wrOut w) ∧
  (∀ s t : State, exec (.wrOut 0x1234) s = .next t → ∃ u, exec .rdOut t = .next u ∧ u.rdata.toInt = s.out.toInt)

/-- R163: a WRITE to an address from 0x5 to 0xF does nothing to any register; a later READ of it still gives
0. -/
def Obligations.ReservedWriteIsIgnored : Prop :=
  (∀ (s : State) (w : Word), exec (.wrRsvd5 w) s = .next { s with rdv := false, outv := false }) ∧
  (∀ (s : State) (a : RegAddr) (w : Word), (Instr.wrRsvd6_7 a w).wellFormed = true →
    exec (.wrRsvd6_7 a w) s = .next { s with rdv := false, outv := false }) ∧
  (∀ (s : State) (a : RegAddr) (w : Word), (Instr.wrRsvd8_15 a w).wellFormed = true →
    exec (.wrRsvd8_15 a w) s = .next { s with rdv := false, outv := false }) ∧
  (∀ (a : RegAddr) (w : Word), 5 ≤ a.toNat →
    decode (makeCommandWord 0b10 a w) =
      if a.toNat = 5 then .wrRsvd5 w else if a.toNat ≤ 7 then .wrRsvd6_7 a w else .wrRsvd8_15 a w) ∧
  (∀ (s t : State) (a : RegAddr) (w w' : Word), 5 ≤ a.toNat →
    exec (decode (makeCommandWord 0b10 a w)) s = .next t →
    ∃ u, exec (decode (makeCommandWord 0b01 a w')) t = .next u ∧ u.rdata = 0) ∧
  (∀ s : State, exec (decode 0x2700000005) s = .next { s with rdv := false, outv := false })

/-- R164: a WRITE to INC leaves the phase, and the next STEP goes on from it at the new rate; a WRITE to PHASE
is what moves it. -/
def Obligations.FrequencyChangeKeepsThePhase : Prop :=
  (∀ (s : State) (w : Word), ∃ t u, exec (.wrInc w) s = .next t ∧ t.acc = s.acc ∧ exec .step t = .next u ∧
    u.acc = s.acc + w) ∧
  (∀ (s : State) (w : Word), ∃ t, exec (.wrPhase w) s = .next t ∧ t.acc = w)

/-- R165: nothing is smoothed: the next STEP uses the new INC, BLEND and SHAPE in full. -/
def Obligations.NewParametersTakeFullEffectAtOnce : Prop :=
  ∀ (s : State) (i b c : Word), ∃ t u v x,
    exec (.wrInc i) s = .next t ∧ exec (.wrBlend b) t = .next u ∧ exec (.wrCtrl c) u = .next v ∧
    exec .step v = .next x ∧ x.acc = s.acc + i ∧
    x.out.toInt = mix (sine (s.acc + i))
      (if c.toNat % 2 = 0 then triangle (s.acc + i) else saw (s.acc + i)) (min (max b.toInt 0) 65536).toNat

/-- R56: a READ changes no register of the map, only RDATA, RDV and the strobe OUTV; repeating it gives the same
value as long as no WRITE, STEP or reset comes between; a WRITE twice is a WRITE once; STEP advances ACC each
time, so it is not idempotent. -/
def Obligations.ReadsAndWritesAreIdempotent : Prop :=
  (∀ (a : RegAddr) (w : Word) (s : State), ∃ t, exec (decode (makeCommandWord 0b01 a w)) s = .next t ∧
    t = { s with rdata := t.rdata, rdv := true, outv := false } ∧ ∀ b : RegAddr, regRead b t = regRead b s) ∧
  (∀ (a : RegAddr) (w w' : Word) (s : State) (ps : List PortInputs) (rest : List PortCycle),
    (∀ p ∈ ps, p.rst = false ∧ (p.cmdValid = true → p.cmdOp = 0b00 ∨ p.cmdOp = 0b01)) →
    s.port = commandCycle (makeCommandWord 0b01 a w) :: ps.map PortCycle.sampled ++
      commandCycle (makeCommandWord 0b01 a w') :: rest →
    ∃ t u, step s = .next t ∧ runCycles (ps.length + 2) s = .next u ∧ u.rdata = t.rdata) ∧
  (∀ (a : RegAddr) (w : Word) (s t : State), exec (decode (makeCommandWord 0b10 a w)) s = .next t →
    exec (decode (makeCommandWord 0b10 a w)) t = .next t) ∧
  (∀ s : State, ∃ t, exec .step s = .next t ∧ t.acc = s.acc + s.inc) ∧
  (∃ s t u : State, exec .step s = .next t ∧ exec .step t = .next u ∧ u.acc ≠ t.acc)

/-! ### The ports -/

/-- R215: a READ's word is on rd_data with rd_valid = 1 in the next cycle; rd_valid lasts that one cycle unless
the next is a READ too; rd_data stays until the next READ's edge or reset, a WRITE to that register
notwithstanding; READs in a row give their values in a row. -/
def Obligations.ReadDataAppearsInTheNextCycle : Prop :=
  (∀ (a : RegAddr) (w : Word) (s : State) (ps : List PortInputs) (rest : List PortCycle),
    (∀ p ∈ ps, p.rst = false ∧ (p.cmdValid = true → p.cmdOp ≠ 0b01)) →
    s.port = commandCycle (makeCommandWord 0b01 a w) :: ps.map PortCycle.sampled ++ rest →
    ∃ t, runCycles (ps.length + 1) s = .next t ∧ (outputPorts t).rdData = regRead a s ∧
      ((outputPorts t).rdValid = true ↔ ps = [])) ∧
  (∀ (a b : RegAddr) (w w' : Word) (s : State) (rest : List PortCycle),
    s.port = commandCycle (makeCommandWord 0b01 a w) :: commandCycle (makeCommandWord 0b01 b w') :: rest →
    ∃ t u, runCycles 1 s = .next t ∧ runCycles 2 s = .next u ∧
      (outputPorts t).rdData = regRead a s ∧ (outputPorts t).rdValid = true ∧
      (outputPorts u).rdData = regRead b s ∧ (outputPorts u).rdValid = true) ∧
  (∀ (s : State) (p : PortInputs) (rest : List PortCycle), p.rst = true → s.port = .sampled p :: rest →
    ∃ t, step s = .next t ∧ (outputPorts t).rdData = 0 ∧ (outputPorts t).rdValid = false)

/-- R216: a STEP's sample is on out_sample with out_valid = 1 in the next cycle; out_valid lasts that one cycle
unless the next is a STEP too; out_sample stays until the next STEP's edge or reset. -/
def Obligations.SampleAppearsInTheNextCycle : Prop :=
  (∀ (c : RegAddr) (w : Word) (s : State) (ps : List PortInputs) (rest : List PortCycle),
    (∀ p ∈ ps, p.rst = false ∧ (p.cmdValid = true → p.cmdOp ≠ 0b11)) →
    s.port = commandCycle (makeCommandWord 0b11 c w) :: ps.map PortCycle.sampled ++ rest →
    ∃ t, runCycles (ps.length + 1) s = .next t ∧ (outputPorts t).outSample = nextSample s ∧
      ((outputPorts t).outValid = true ↔ ps = [])) ∧
  (∀ (c c' : RegAddr) (w w' : Word) (s : State) (rest : List PortCycle),
    s.port = commandCycle (makeCommandWord 0b11 c w) :: commandCycle (makeCommandWord 0b11 c' w') :: rest →
    ∃ t u, runCycles 1 s = .next t ∧ runCycles 2 s = .next u ∧ (outputPorts t).outValid = true ∧
      (outputPorts u).outSample = nextSample t ∧ (outputPorts u).outValid = true) ∧
  (∀ (s : State) (p : PortInputs) (rest : List PortCycle), p.rst = true → s.port = .sampled p :: rest →
    ∃ t, step s = .next t ∧ (outputPorts t).outSample = 0 ∧ (outputPorts t).outValid = false)

/-! ### The whole machine -/

/-- Every step keeps the invariant, from every state that has it: the blend code is legal (R23), the strobes
exclude each other (R26, R27), a shown sample is the sample at ACC (R100, R154), a shown word is a register's
(R150). -/
def Obligations.EveryStepKeepsTheInvariant : Prop :=
  ∀ s t : State, s.Inv → step s = .next t → t.Inv

/-- The state after reset has the invariant, and every register is 0 there (10_state.md R39). -/
def Obligations.ResetStateHasTheInvariant : Prop :=
  State.reset.Inv ∧ State.reset.acc = 0 ∧ State.reset.inc = 0 ∧ State.reset.blend = 0 ∧ State.reset.shape = 0 ∧
  State.reset.out = 0 ∧ State.reset.rdata = 0 ∧ State.reset.rdv = false ∧ State.reset.outv = false

/-- Derived from 10_state.md R21 to R27: only the events those rules name change each register: ACC a STEP, a
write to PHASE or reset; INC, BLEND and SHAPE a write to theirs or reset; OUT a STEP or reset; RDATA a READ or
reset; RDV is 1 exactly after a READ, OUTV exactly after a STEP. -/
def Obligations.OnlyTheNamedEventsChangeEachRegister : Prop :=
  ∀ (s t : State) (p : PortInputs) (rest : List PortCycle) (i : Instr),
    s.port = .sampled p :: rest → i = decode (makeCommandWord p.cmdOp p.cmdAddr p.cmdWdata) → step s = .next t →
    (t.acc ≠ s.acc → p.rst = true ∨ (p.cmdValid = true ∧ (i = .step ∨ ∃ w, i = .wrPhase w))) ∧
    (t.inc ≠ s.inc → p.rst = true ∨ (p.cmdValid = true ∧ ∃ w, i = .wrInc w)) ∧
    (t.blend ≠ s.blend → p.rst = true ∨ (p.cmdValid = true ∧ ∃ w, i = .wrBlend w)) ∧
    (t.shape ≠ s.shape → p.rst = true ∨ (p.cmdValid = true ∧ ∃ w, i = .wrCtrl w)) ∧
    (t.out ≠ s.out → p.rst = true ∨ (p.cmdValid = true ∧ i = .step)) ∧
    (t.rdata ≠ s.rdata → p.rst = true ∨ (p.cmdValid = true ∧ p.cmdOp = 0b01)) ∧
    (t.rdv = true ↔ p.rst = false ∧ p.cmdValid = true ∧ p.cmdOp = 0b01) ∧
    (t.outv = true ↔ p.rst = false ∧ p.cmdValid = true ∧ i = .step) ∧ t.port = rest

/-- Derived from 10_state.md R40: there is no state a program can observe indirectly. Two blocks that agree on
ACC, INC, BLEND, SHAPE and OUT and are driven alike show the same samples and the same read words, whatever
RDATA, RDV and OUTV held; and a STEP of two blocks that agree on ACC, INC, BLEND and SHAPE gives the same phase
and the same sample. That an observation tells STEPs and READs by OUTV and RDV is read from the spec by inference
(DEDUCED, notes/assumptions/12.md); what STEP gives for a blend code above 65536 is the model's choice (5.md). -/
def Obligations.PortRegistersAreNotObservedIndirectly : Prop :=
  (∀ (n : Nat) (s t : State) (o : Observation),
    s.acc = t.acc → s.inc = t.inc → s.blend = t.blend → s.shape = t.shape → s.out = t.out → s.port = t.port →
    observe n s = .next o → ∃ o', observe n t = .next o' ∧ o'.outs = o.outs ∧ o'.reads = o.reads ∧
      ∀ a : RegAddr, regRead a o'.final = regRead a o.final) ∧
  (∀ s t : State, s.acc = t.acc → s.inc = t.inc → s.blend = t.blend → s.shape = t.shape →
    ∃ s' t', exec .step s = .next s' ∧ exec .step t = .next t' ∧ s'.acc = t'.acc ∧ s'.out = t'.out)

/-- Derived from 70_reset_and_hazards.md R212, R213 and R220: a run, which begins with a reset, shows nothing
of what the registers held before it; it shows one sample for each STEP and one word for each READ that no
reset discards, and ends. That the state before the reset is a draw is the MODEL'S CHOICE of the two R212 allows
(notes/assumptions/4.md); that an observation tells STEPs and READs by OUTV and RDV is DEDUCED (12.md). -/
def Obligations.RunsForgetThePowerOnState : Prop :=
  ∀ (n m : Nat) (ps : List PortInputs),
    observeRun n (ps.map PortCycle.sampled) = observeRun m (ps.map PortCycle.sampled) ∧
    ∃ o, observeRun n (ps.map PortCycle.sampled) = .next o ∧
      o.outs.length = (ps.filter (fun p => !p.rst && p.cmdValid && p.cmdOp == 0b11)).length ∧
      o.reads.length = (ps.filter (fun p => !p.rst && p.cmdValid && p.cmdOp == 0b01)).length ∧
      o.final.blend.toNat ≤ 65536

/-- Derived from 60_exceptions.md R196: a cycle of one instance changes no other, is determined by that
instance alone, and cycles of two instances can be taken in either order. -/
def Obligations.InstancesDoNotObserveEachOther : Prop :=
  (∀ (p q : Platform) (k : Fin p.length), p.stepInstance k = .next q →
    q.length = p.length ∧ (∀ j : Nat, j ≠ k → q[j]? = p[j]?) ∧ ∃ t, step p[k] = .next t ∧ q[k.val]? = some t) ∧
  (∀ (p p' : Platform) (k : Fin p.length) (k' : Fin p'.length) (q : Platform),
    p[k] = p'[k'] → p.stepInstance k = .next q →
    ∃ q', p'.stepInstance k' = .next q' ∧ q'[k'.val]? = q[k.val]?) ∧
  (∀ (p q r : Platform) (j k : Nat) (hj : j < p.length) (hk : k < p.length) (hk' : k < q.length), j ≠ k →
    Platform.stepInstance p ⟨j, hj⟩ = .next q → Platform.stepInstance q ⟨k, hk'⟩ = .next r →
    ∃ (q' : Platform) (hj' : j < q'.length),
      Platform.stepInstance p ⟨k, hk⟩ = .next q' ∧ Platform.stepInstance q' ⟨j, hj'⟩ = .next r)
end

