-- ==== Sys2Proof/Laws/Decode.lean ====
section
/-! SUPPORT. The fields of a command word, taken apart and put together (30_encoding.md R71). -/

namespace Sys2Proof

/-- Each bit of a command word is a bit of one field (R71). -/
theorem getLsbD_makeCommandWord (op : OpField) (a : RegAddr) (w : Word) (k : Nat) :
    (makeCommandWord op a w).getLsbD k =
      if k < 32 then w.getLsbD k else if k - 32 < 4 then a.getLsbD (k - 32) else op.getLsbD (k - 32 - 4) := by
  have h : (makeCommandWord op a w).getLsbD k = BitVec.getLsbD (w := 2 + 4 + 32) (op ++ a ++ w) k := rfl
  rw [h, BitVec.getLsbD_append, BitVec.getLsbD_append]

@[simp] theorem opField_makeCommandWord (op : OpField) (a : RegAddr) (w : Word) :
    opField (makeCommandWord op a w) = op := by
  apply BitVec.eq_of_getLsbD_eq
  intro k hk
  have h1 : ¬ 36 + k < 32 := by omega
  have h2 : ¬ 36 + k - 32 < 4 := by omega
  have h3 : 36 + k - 32 - 4 = k := by omega
  rw [opField, BitVec.getLsbD_extractLsb', getLsbD_makeCommandWord, if_neg h1, if_neg h2, h3]
  simp [hk]

@[simp] theorem addrField_makeCommandWord (op : OpField) (a : RegAddr) (w : Word) :
    addrField (makeCommandWord op a w) = a := by
  apply BitVec.eq_of_getLsbD_eq
  intro k hk
  have h1 : ¬ 32 + k < 32 := by omega
  have h2 : 32 + k - 32 = k := by omega
  rw [addrField, BitVec.getLsbD_extractLsb', getLsbD_makeCommandWord, if_neg h1, h2, if_pos hk]
  simp [hk]

@[simp] theorem wdataField_makeCommandWord (op : OpField) (a : RegAddr) (w : Word) :
    wdataField (makeCommandWord op a w) = w := by
  apply BitVec.eq_of_getLsbD_eq
  intro k hk
  rw [wdataField, BitVec.getLsbD_extractLsb', getLsbD_makeCommandWord, Nat.zero_add, if_pos hk]
  simp [hk]

/-- A command word is its three fields. -/
@[simp] theorem makeCommandWord_fields (cw : CommandWord) :
    makeCommandWord (opField cw) (addrField cw) (wdataField cw) = cw := by
  apply BitVec.eq_of_getLsbD_eq
  intro k hk
  rw [getLsbD_makeCommandWord, opField, addrField, wdataField, BitVec.getLsbD_extractLsb',
    BitVec.getLsbD_extractLsb', BitVec.getLsbD_extractLsb']
  split
  · rename_i h; simp [h]
  · split
    · rename_i h1 h2
      have h3 : 32 + (k - 32) = k := by omega
      simp [h2, h3]
    · have h2 : k - 32 - 4 < 2 := by omega
      have h3 : 36 + (k - 32 - 4) = k := by omega
      rw [h3]; simp [h2]

/-- What the decoder reads is a matter of the three fields. -/
@[simp] theorem decode_makeCommandWord (op : OpField) (a : RegAddr) (w : Word) :
    decode (makeCommandWord op a w) = decodeFields op a w := by simp [decode]

/-- Masking a command word masks each field. -/
theorem makeCommandWord_and (op op' : OpField) (a a' : RegAddr) (w w' : Word) :
    makeCommandWord op a w &&& makeCommandWord op' a' w' = makeCommandWord (op &&& op') (a &&& a') (w &&& w') := by
  unfold makeCommandWord
  rw [BitVec.and_append, BitVec.and_append]

/-- A property of every register address is sixteen properties. -/
theorem RegAddr.forall_cases {P : RegAddr → Prop} (h : ∀ n : Fin 16, P (BitVec.ofFin n)) (a : RegAddr) : P a := h a.toFin

end Sys2Proof

namespace Sys2Proof.Machine

/-- A cycle that presents a command word presents that word. -/
@[simp] theorem commandInputs_commandWord (cw : CommandWord) : (commandInputs cw).commandWord = cw := by
  simp [commandInputs, PortInputs.commandWord]

end Sys2Proof.Machine
end

