-- ==== Sys2Proof/Laws/State.lean ====
section
/-! SUPPORT. One lemma per field per register update. -/

namespace Sys2Proof.Machine

@[simp] theorem State.setAcc_acc (s : State) (v : Word) : (s.setAcc v).acc = v := rfl
@[simp] theorem State.setAcc_inc (s : State) (v : Word) : (s.setAcc v).inc = s.inc := rfl
@[simp] theorem State.setAcc_blend (s : State) (v : Word) : (s.setAcc v).blend = s.blend := rfl
@[simp] theorem State.setAcc_shape (s : State) (v : Word) : (s.setAcc v).shape = s.shape := rfl
@[simp] theorem State.setAcc_out (s : State) (v : Word) : (s.setAcc v).out = s.out := rfl
@[simp] theorem State.setAcc_rdata (s : State) (v : Word) : (s.setAcc v).rdata = s.rdata := rfl
@[simp] theorem State.setAcc_rdv (s : State) (v : Word) : (s.setAcc v).rdv = s.rdv := rfl
@[simp] theorem State.setAcc_outv (s : State) (v : Word) : (s.setAcc v).outv = s.outv := rfl
@[simp] theorem State.setAcc_port (s : State) (v : Word) : (s.setAcc v).port = s.port := rfl

@[simp] theorem State.setInc_acc (s : State) (v : Word) : (s.setInc v).acc = s.acc := rfl
@[simp] theorem State.setInc_inc (s : State) (v : Word) : (s.setInc v).inc = v := rfl
@[simp] theorem State.setInc_blend (s : State) (v : Word) : (s.setInc v).blend = s.blend := rfl
@[simp] theorem State.setInc_shape (s : State) (v : Word) : (s.setInc v).shape = s.shape := rfl
@[simp] theorem State.setInc_out (s : State) (v : Word) : (s.setInc v).out = s.out := rfl
@[simp] theorem State.setInc_rdata (s : State) (v : Word) : (s.setInc v).rdata = s.rdata := rfl
@[simp] theorem State.setInc_rdv (s : State) (v : Word) : (s.setInc v).rdv = s.rdv := rfl
@[simp] theorem State.setInc_outv (s : State) (v : Word) : (s.setInc v).outv = s.outv := rfl
@[simp] theorem State.setInc_port (s : State) (v : Word) : (s.setInc v).port = s.port := rfl

@[simp] theorem State.setBlend_acc (s : State) (v : BlendCode) : (s.setBlend v).acc = s.acc := rfl
@[simp] theorem State.setBlend_inc (s : State) (v : BlendCode) : (s.setBlend v).inc = s.inc := rfl
@[simp] theorem State.setBlend_blend (s : State) (v : BlendCode) : (s.setBlend v).blend = v := rfl
@[simp] theorem State.setBlend_shape (s : State) (v : BlendCode) : (s.setBlend v).shape = s.shape := rfl
@[simp] theorem State.setBlend_out (s : State) (v : BlendCode) : (s.setBlend v).out = s.out := rfl
@[simp] theorem State.setBlend_rdata (s : State) (v : BlendCode) : (s.setBlend v).rdata = s.rdata := rfl
@[simp] theorem State.setBlend_rdv (s : State) (v : BlendCode) : (s.setBlend v).rdv = s.rdv := rfl
@[simp] theorem State.setBlend_outv (s : State) (v : BlendCode) : (s.setBlend v).outv = s.outv := rfl
@[simp] theorem State.setBlend_port (s : State) (v : BlendCode) : (s.setBlend v).port = s.port := rfl

@[simp] theorem State.setShape_acc (s : State) (v : BitVec 1) : (s.setShape v).acc = s.acc := rfl
@[simp] theorem State.setShape_inc (s : State) (v : BitVec 1) : (s.setShape v).inc = s.inc := rfl
@[simp] theorem State.setShape_blend (s : State) (v : BitVec 1) : (s.setShape v).blend = s.blend := rfl
@[simp] theorem State.setShape_shape (s : State) (v : BitVec 1) : (s.setShape v).shape = v := rfl
@[simp] theorem State.setShape_out (s : State) (v : BitVec 1) : (s.setShape v).out = s.out := rfl
@[simp] theorem State.setShape_rdata (s : State) (v : BitVec 1) : (s.setShape v).rdata = s.rdata := rfl
@[simp] theorem State.setShape_rdv (s : State) (v : BitVec 1) : (s.setShape v).rdv = s.rdv := rfl
@[simp] theorem State.setShape_outv (s : State) (v : BitVec 1) : (s.setShape v).outv = s.outv := rfl
@[simp] theorem State.setShape_port (s : State) (v : BitVec 1) : (s.setShape v).port = s.port := rfl

@[simp] theorem State.setOut_acc (s : State) (v : Sample) : (s.setOut v).acc = s.acc := rfl
@[simp] theorem State.setOut_inc (s : State) (v : Sample) : (s.setOut v).inc = s.inc := rfl
@[simp] theorem State.setOut_blend (s : State) (v : Sample) : (s.setOut v).blend = s.blend := rfl
@[simp] theorem State.setOut_shape (s : State) (v : Sample) : (s.setOut v).shape = s.shape := rfl
@[simp] theorem State.setOut_out (s : State) (v : Sample) : (s.setOut v).out = v := rfl
@[simp] theorem State.setOut_rdata (s : State) (v : Sample) : (s.setOut v).rdata = s.rdata := rfl
@[simp] theorem State.setOut_rdv (s : State) (v : Sample) : (s.setOut v).rdv = s.rdv := rfl
@[simp] theorem State.setOut_outv (s : State) (v : Sample) : (s.setOut v).outv = s.outv := rfl
@[simp] theorem State.setOut_port (s : State) (v : Sample) : (s.setOut v).port = s.port := rfl

@[simp] theorem State.setRdata_acc (s : State) (v : Word) : (s.setRdata v).acc = s.acc := rfl
@[simp] theorem State.setRdata_inc (s : State) (v : Word) : (s.setRdata v).inc = s.inc := rfl
@[simp] theorem State.setRdata_blend (s : State) (v : Word) : (s.setRdata v).blend = s.blend := rfl
@[simp] theorem State.setRdata_shape (s : State) (v : Word) : (s.setRdata v).shape = s.shape := rfl
@[simp] theorem State.setRdata_out (s : State) (v : Word) : (s.setRdata v).out = s.out := rfl
@[simp] theorem State.setRdata_rdata (s : State) (v : Word) : (s.setRdata v).rdata = v := rfl
@[simp] theorem State.setRdata_rdv (s : State) (v : Word) : (s.setRdata v).rdv = s.rdv := rfl
@[simp] theorem State.setRdata_outv (s : State) (v : Word) : (s.setRdata v).outv = s.outv := rfl
@[simp] theorem State.setRdata_port (s : State) (v : Word) : (s.setRdata v).port = s.port := rfl

@[simp] theorem State.setStrobes_acc (s : State) (a b : Bool) : (s.setStrobes a b).acc = s.acc := rfl
@[simp] theorem State.setStrobes_inc (s : State) (a b : Bool) : (s.setStrobes a b).inc = s.inc := rfl
@[simp] theorem State.setStrobes_blend (s : State) (a b : Bool) : (s.setStrobes a b).blend = s.blend := rfl
@[simp] theorem State.setStrobes_shape (s : State) (a b : Bool) : (s.setStrobes a b).shape = s.shape := rfl
@[simp] theorem State.setStrobes_out (s : State) (a b : Bool) : (s.setStrobes a b).out = s.out := rfl
@[simp] theorem State.setStrobes_rdata (s : State) (a b : Bool) : (s.setStrobes a b).rdata = s.rdata := rfl
@[simp] theorem State.setStrobes_rdv (s : State) (a b : Bool) : (s.setStrobes a b).rdv = a := rfl
@[simp] theorem State.setStrobes_outv (s : State) (a b : Bool) : (s.setStrobes a b).outv = b := rfl
@[simp] theorem State.setStrobes_port (s : State) (a b : Bool) : (s.setStrobes a b).port = s.port := rfl

@[simp] theorem State.setPort_acc (s : State) (v : List PortCycle) : (s.setPort v).acc = s.acc := rfl
@[simp] theorem State.setPort_inc (s : State) (v : List PortCycle) : (s.setPort v).inc = s.inc := rfl
@[simp] theorem State.setPort_blend (s : State) (v : List PortCycle) : (s.setPort v).blend = s.blend := rfl
@[simp] theorem State.setPort_shape (s : State) (v : List PortCycle) : (s.setPort v).shape = s.shape := rfl
@[simp] theorem State.setPort_out (s : State) (v : List PortCycle) : (s.setPort v).out = s.out := rfl
@[simp] theorem State.setPort_rdata (s : State) (v : List PortCycle) : (s.setPort v).rdata = s.rdata := rfl
@[simp] theorem State.setPort_rdv (s : State) (v : List PortCycle) : (s.setPort v).rdv = s.rdv := rfl
@[simp] theorem State.setPort_outv (s : State) (v : List PortCycle) : (s.setPort v).outv = s.outv := rfl
@[simp] theorem State.setPort_port (s : State) (v : List PortCycle) : (s.setPort v).port = v := rfl

/-! The strobes of each kind of cycle are one `setStrobes`. -/

@[simp] theorem State.strobeRead_eq (s : State) : s.strobeRead = s.setStrobes true false := rfl
@[simp] theorem State.strobeSample_eq (s : State) : s.strobeSample = s.setStrobes false true := rfl
@[simp] theorem State.strobeNone_eq (s : State) : s.strobeNone = s.setStrobes false false := rfl

/-! The state after reset (10_state.md R39). -/

@[simp] theorem State.reset_acc : State.reset.acc = 0 := rfl
@[simp] theorem State.reset_inc : State.reset.inc = 0 := rfl
@[simp] theorem State.reset_blend : State.reset.blend = 0 := rfl
@[simp] theorem State.reset_shape : State.reset.shape = 0 := rfl
@[simp] theorem State.reset_out : State.reset.out = 0 := rfl
@[simp] theorem State.reset_rdata : State.reset.rdata = 0 := rfl
@[simp] theorem State.reset_rdv : State.reset.rdv = false := rfl
@[simp] theorem State.reset_outv : State.reset.outv = false := rfl
@[simp] theorem State.reset_port : State.reset.port = [] := rfl

/-- Two states with the same fields are the same. -/
theorem State.ext_fields {s t : State} (acc : s.acc = t.acc) (inc : s.inc = t.inc) (blend : s.blend = t.blend)
    (shape : s.shape = t.shape) (out : s.out = t.out) (rdata : s.rdata = t.rdata) (rdv : s.rdv = t.rdv)
    (outv : s.outv = t.outv) (port : s.port = t.port) : s = t := by
  cases s; cases t; simp_all

end Sys2Proof.Machine
end

