-- ==== Sys2Proof/Laws/Ops.lean ====
section
/-! SUPPORT. What each shared operation can do, said once. -/

namespace Sys2Proof.Machine

/-! ### The register space -/

@[simp] theorem regRead_ctrl (s : State) : regRead 0#4 s = ctrlWord s.shape := rfl
@[simp] theorem regRead_inc (s : State) : regRead 1#4 s = s.inc := rfl
@[simp] theorem regRead_blend (s : State) : regRead 2#4 s = blendWord s.blend := rfl
@[simp] theorem regRead_phase (s : State) : regRead 3#4 s = s.acc := rfl
@[simp] theorem regRead_out (s : State) : regRead 4#4 s = outWord s.out := rfl

/-- A reserved address reads as 0 (R156). -/
theorem regRead_reserved (a : RegAddr) (s : State) (h : 5 ≤ a.toNat) : regRead a s = 0 := by
  unfold regRead; split <;> first | omega | rfl

@[simp] theorem regWrite_ctrl (w : Word) (s : State) : regWrite 0#4 w s = s.setShape (shapeOperand w) := rfl
@[simp] theorem regWrite_inc (w : Word) (s : State) : regWrite 1#4 w s = s.setInc w := rfl
@[simp] theorem regWrite_blend (w : Word) (s : State) : regWrite 2#4 w s = s.setBlend (blendOperand w) := rfl
@[simp] theorem regWrite_phase (w : Word) (s : State) : regWrite 3#4 w s = s.setAcc w := rfl

/-- A write to OUT or to a reserved address writes no register (R162, R163). -/
theorem regWrite_ignored (a : RegAddr) (w : Word) (s : State) (h : 4 ≤ a.toNat) : regWrite a w s = s := by
  unfold regWrite; split <;> first | omega | rfl

/-- Everything a register write can do. -/
theorem regWrite_cases (a : RegAddr) (w : Word) (s : State) :
    (a = 0x0 ∧ regWrite a w s = s.setShape (shapeOperand w)) ∨
    (a = 0x1 ∧ regWrite a w s = s.setInc w) ∨
    (a = 0x2 ∧ regWrite a w s = s.setBlend (blendOperand w)) ∨
    (a = 0x3 ∧ regWrite a w s = s.setAcc w) ∨
    (4 ≤ a.toNat ∧ regWrite a w s = s) := by
  by_cases h0 : a = 0x0
  · subst h0; exact .inl ⟨rfl, rfl⟩
  by_cases h1 : a = 0x1
  · subst h1; exact .inr (.inl ⟨rfl, rfl⟩)
  by_cases h2 : a = 0x2
  · subst h2; exact .inr (.inr (.inl ⟨rfl, rfl⟩))
  by_cases h3 : a = 0x3
  · subst h3; exact .inr (.inr (.inr (.inl ⟨rfl, rfl⟩)))
  have h4 : 4 ≤ a.toNat := by
    rw [← BitVec.toNat_inj] at h0 h1 h2 h3
    simp at h0 h1 h2 h3
    omega
  exact .inr (.inr (.inr (.inr ⟨h4, regWrite_ignored a w s h4⟩)))

/-! ### The four operations -/

/-- Everything a READ does. -/
theorem readCommand_eq (a : RegAddr) (s : State) :
    readCommand a s = { s with rdata := regRead a s, rdv := true, outv := false } := rfl

/-- Everything a WRITE does beside its register. -/
theorem writeCommand_eq (a : RegAddr) (w : Word) (s : State) :
    writeCommand a w s = { regWrite a w s with rdv := false, outv := false } := rfl

/-- Everything a NOP does. -/
theorem nopCommand_eq (s : State) : nopCommand s = { s with rdv := false, outv := false } := rfl

/-- Everything a STEP does. -/
theorem stepCommand_eq (s : State) :
    stepCommand s = { s with acc := s.acc + s.inc, out := nextSample s, rdv := false, outv := true } := rfl

/-- Everything a reset edge does (R210). -/
theorem resetEdge_eq (s : State) : resetEdge s = { State.reset with port := s.port } := rfl

/-! One lemma per field per operation: use these, not the whole record, where a STEP's sample stands in it. -/

@[simp] theorem readCommand_acc (a : RegAddr) (s : State) : (readCommand a s).acc = s.acc := rfl
@[simp] theorem readCommand_inc (a : RegAddr) (s : State) : (readCommand a s).inc = s.inc := rfl
@[simp] theorem readCommand_blend (a : RegAddr) (s : State) : (readCommand a s).blend = s.blend := rfl
@[simp] theorem readCommand_shape (a : RegAddr) (s : State) : (readCommand a s).shape = s.shape := rfl
@[simp] theorem readCommand_out (a : RegAddr) (s : State) : (readCommand a s).out = s.out := rfl
@[simp] theorem readCommand_rdata (a : RegAddr) (s : State) : (readCommand a s).rdata = regRead a s := rfl
@[simp] theorem readCommand_rdv (a : RegAddr) (s : State) : (readCommand a s).rdv = true := rfl
@[simp] theorem readCommand_outv (a : RegAddr) (s : State) : (readCommand a s).outv = false := rfl
@[simp] theorem readCommand_port (a : RegAddr) (s : State) : (readCommand a s).port = s.port := rfl

@[simp] theorem nopCommand_acc (s : State) : (nopCommand s).acc = s.acc := rfl
@[simp] theorem nopCommand_inc (s : State) : (nopCommand s).inc = s.inc := rfl
@[simp] theorem nopCommand_blend (s : State) : (nopCommand s).blend = s.blend := rfl
@[simp] theorem nopCommand_shape (s : State) : (nopCommand s).shape = s.shape := rfl
@[simp] theorem nopCommand_out (s : State) : (nopCommand s).out = s.out := rfl
@[simp] theorem nopCommand_rdata (s : State) : (nopCommand s).rdata = s.rdata := rfl
@[simp] theorem nopCommand_rdv (s : State) : (nopCommand s).rdv = false := rfl
@[simp] theorem nopCommand_outv (s : State) : (nopCommand s).outv = false := rfl
@[simp] theorem nopCommand_port (s : State) : (nopCommand s).port = s.port := rfl

@[simp] theorem stepCommand_acc (s : State) : (stepCommand s).acc = s.acc + s.inc := rfl
@[simp] theorem stepCommand_inc (s : State) : (stepCommand s).inc = s.inc := rfl
@[simp] theorem stepCommand_blend (s : State) : (stepCommand s).blend = s.blend := rfl
@[simp] theorem stepCommand_shape (s : State) : (stepCommand s).shape = s.shape := rfl
@[simp] theorem stepCommand_out (s : State) : (stepCommand s).out = nextSample s := rfl
@[simp] theorem stepCommand_rdata (s : State) : (stepCommand s).rdata = s.rdata := rfl
@[simp] theorem stepCommand_rdv (s : State) : (stepCommand s).rdv = false := rfl
@[simp] theorem stepCommand_outv (s : State) : (stepCommand s).outv = true := rfl
@[simp] theorem stepCommand_port (s : State) : (stepCommand s).port = s.port := rfl

@[simp] theorem resetEdge_acc (s : State) : (resetEdge s).acc = 0 := rfl
@[simp] theorem resetEdge_inc (s : State) : (resetEdge s).inc = 0 := rfl
@[simp] theorem resetEdge_blend (s : State) : (resetEdge s).blend = 0 := rfl
@[simp] theorem resetEdge_shape (s : State) : (resetEdge s).shape = 0 := rfl
@[simp] theorem resetEdge_out (s : State) : (resetEdge s).out = 0 := rfl
@[simp] theorem resetEdge_rdata (s : State) : (resetEdge s).rdata = 0 := rfl
@[simp] theorem resetEdge_rdv (s : State) : (resetEdge s).rdv = false := rfl
@[simp] theorem resetEdge_outv (s : State) : (resetEdge s).outv = false := rfl
@[simp] theorem resetEdge_port (s : State) : (resetEdge s).port = s.port := rfl

@[simp] theorem writeCommand_acc (a : RegAddr) (w : Word) (s : State) : (writeCommand a w s).acc = (regWrite a w s).acc := rfl
@[simp] theorem writeCommand_inc (a : RegAddr) (w : Word) (s : State) : (writeCommand a w s).inc = (regWrite a w s).inc := rfl
@[simp] theorem writeCommand_blend (a : RegAddr) (w : Word) (s : State) : (writeCommand a w s).blend = (regWrite a w s).blend := rfl
@[simp] theorem writeCommand_shape (a : RegAddr) (w : Word) (s : State) : (writeCommand a w s).shape = (regWrite a w s).shape := rfl
@[simp] theorem writeCommand_out (a : RegAddr) (w : Word) (s : State) : (writeCommand a w s).out = (regWrite a w s).out := rfl
@[simp] theorem writeCommand_rdata (a : RegAddr) (w : Word) (s : State) : (writeCommand a w s).rdata = (regWrite a w s).rdata := rfl
@[simp] theorem writeCommand_rdv (a : RegAddr) (w : Word) (s : State) : (writeCommand a w s).rdv = false := rfl
@[simp] theorem writeCommand_outv (a : RegAddr) (w : Word) (s : State) : (writeCommand a w s).outv = false := rfl
@[simp] theorem writeCommand_port (a : RegAddr) (w : Word) (s : State) : (writeCommand a w s).port = (regWrite a w s).port := rfl

/-- A register write leaves what no register address reaches (R157). -/
@[simp] theorem regWrite_out (a : RegAddr) (w : Word) (s : State) : (regWrite a w s).out = s.out := by
  rcases regWrite_cases a w s with h | h | h | h | h <;> simp [h.2]
@[simp] theorem regWrite_rdata (a : RegAddr) (w : Word) (s : State) : (regWrite a w s).rdata = s.rdata := by
  rcases regWrite_cases a w s with h | h | h | h | h <;> simp [h.2]
@[simp] theorem regWrite_port (a : RegAddr) (w : Word) (s : State) : (regWrite a w s).port = s.port := by
  rcases regWrite_cases a w s with h | h | h | h | h <;> simp [h.2]

/-- The sample of a STEP with a legal blend code (R100). -/
theorem nextSample_legal (s : State) (h : s.blend.toNat ≤ 65536) :
    nextSample s = BitVec.ofInt 16 (blendedSample (s.acc + s.inc) s.blend s.shape) := by
  simp [nextSample, advancedPhase, h]

/-- The sample of a STEP with a blend code the spec gives no result for: the free value. -/
theorem nextSample_beyondOne (s : State) (h : 65536 < s.blend.toNat) :
    nextSample s = Config.outBeyondOne s.acc s.inc s.blend s.shape := by
  simp [nextSample, Nat.not_le.mpr h]

/-! ### Operands -/

theorem clamp_bounds {lo hi : Int} (v : Int) (h : lo ≤ hi) : lo ≤ clamp v lo hi ∧ clamp v lo hi ≤ hi := by
  unfold clamp; omega

/-- The blend code a write stores, as a number. -/
theorem blendOperand_toNat (w : Word) : ((blendOperand w).toNat : Int) = clamp w.toInt 0 65536 := by
  have h := clamp_bounds w.toInt (show (0 : Int) ≤ 65536 by decide)
  simp only [blendOperand, Config.blendOne, BitVec.toNat_ofInt]
  push_cast
  omega

end Sys2Proof.Machine
end

