-- ==== Sys2Proof/Laws/Cycle.lean ====
section
/-! SUPPORT. What one cycle can do, said once. -/

namespace Sys2Proof.Machine

/-- One cycle by the head of the host's list: idle, sampled or disturbed. -/
theorem step_nil (s : State) (h : s.port = []) : step s = exec .nop s := by
  obtain ⟨⟩ := s; subst h; rfl

theorem step_sampled (s : State) (p : PortInputs) (rest : List PortCycle) (h : s.port = .sampled p :: rest) :
    step s = edgeOfInputs p (s.setPort rest) := by
  obtain ⟨⟩ := s; subst h; rfl

theorem step_disturbed (s : State) (d : Disturbance) (rest : List PortCycle) (h : s.port = .disturbed d :: rest) :
    step s = .refused (.disturbed d) := by
  obtain ⟨⟩ := s; subst h; rfl

/-- Everything the edge of a sampled cycle can do. -/
theorem edgeOfInputs_cases (p : PortInputs) (s : State) :
    (p.rst = true ∧ edgeOfInputs p s = .next (resetEdge s)) ∨
    (p.rst = false ∧ p.cmdValid = true ∧ edgeOfInputs p s = exec (decode p.commandWord) s) ∨
    (p.rst = false ∧ p.cmdValid = false ∧ edgeOfInputs p s = exec .nop s) := by
  unfold edgeOfInputs
  cases p.rst <;> cases p.cmdValid <;> simp

/-- Everything one cycle can do. -/
theorem step_cases (s : State) :
    (s.port = [] ∧ step s = exec .nop s) ∨
    (∃ p rest, s.port = .sampled p :: rest ∧ step s = edgeOfInputs p (s.setPort rest)) ∨
    (∃ d rest, s.port = .disturbed d :: rest ∧ step s = .refused (.disturbed d)) := by
  match h : s.port with
  | [] => exact .inl ⟨rfl, step_nil s h⟩
  | .sampled p :: rest => exact .inr (.inl ⟨p, rest, rfl, step_sampled s p rest h⟩)
  | .disturbed d :: rest => exact .inr (.inr ⟨d, rest, rfl, step_disturbed s d rest h⟩)

/-- What a command does is one of the four operations of 30_encoding.md R72. -/
theorem exec_forms (i : Instr) (s : State) :
    exec i s = .next (nopCommand s) ∨ (∃ a, exec i s = .next (readCommand a s)) ∨
    (∃ a w, exec i s = .next (writeCommand a w s)) ∨ exec i s = .next (stepCommand s) := by
  cases i
  case nop => exact .inl rfl
  case step => exact .inr (.inr (.inr rfl))
  all_goals first
    | exact .inr (.inl ⟨_, rfl⟩)
    | exact .inr (.inr (.inl ⟨_, _, rfl⟩))

/-- Every READ word does the one READ (R150). -/
theorem exec_decodeRead (a : RegAddr) (s : State) : exec (decodeRead a) s = .next (readCommand a s) := by
  have h : ∀ n : Fin 16, exec (decodeRead (BitVec.ofFin n)) s = .next (readCommand (BitVec.ofFin n) s) := by
    intro n; fin_cases n <;> rfl
  exact h a.toFin

/-- Every WRITE word does the one WRITE (R157). -/
theorem exec_decodeWrite (a : RegAddr) (w : Word) (s : State) :
    exec (decodeWrite a w) s = .next (writeCommand a w s) := by
  have h : ∀ n : Fin 16, exec (decodeWrite (BitVec.ofFin n) w) s = .next (writeCommand (BitVec.ofFin n) w s) := by
    intro n; fin_cases n <;> rfl
  exact h a.toFin

/-- Everything the edge of a sampled cycle can do, by its inputs: reset, or one of the four operations
(R70, R72, R211). -/
theorem edgeOfInputs_forms (p : PortInputs) (s : State) :
    (p.rst = true ∧ edgeOfInputs p s = .next (resetEdge s)) ∨
    (p.rst = false ∧ (p.cmdValid = false ∨ p.cmdOp = 0) ∧ edgeOfInputs p s = .next (nopCommand s)) ∨
    (p.rst = false ∧ p.cmdValid = true ∧ p.cmdOp = 1 ∧ edgeOfInputs p s = .next (readCommand p.cmdAddr s)) ∨
    (p.rst = false ∧ p.cmdValid = true ∧ p.cmdOp = 2 ∧
      edgeOfInputs p s = .next (writeCommand p.cmdAddr p.cmdWdata s)) ∨
    (p.rst = false ∧ p.cmdValid = true ∧ p.cmdOp = 3 ∧ edgeOfInputs p s = .next (stepCommand s)) := by
  rcases edgeOfInputs_cases p s with h | ⟨hr, hv, h⟩ | ⟨hr, hv, h⟩
  · exact .inl h
  · have hop : p.cmdOp = 0 ∨ p.cmdOp = 1 ∨ p.cmdOp = 2 ∨ p.cmdOp = 3 := by
      generalize p.cmdOp = x; revert x; decide
    rw [h, PortInputs.commandWord, decode_makeCommandWord]
    rcases hop with e | e | e | e <;> rw [e]
    · exact .inr (.inl ⟨hr, .inr rfl, rfl⟩)
    · exact .inr (.inr (.inl ⟨hr, hv, rfl, exec_decodeRead _ _⟩))
    · exact .inr (.inr (.inr (.inl ⟨hr, hv, rfl, exec_decodeWrite _ _ _⟩)))
    · exact .inr (.inr (.inr (.inr ⟨hr, hv, rfl, rfl⟩)))
  · exact .inr (.inl ⟨hr, .inl hv, h⟩)

/-- A cycle that presents a command word runs its command. -/
theorem step_commandCycle (s : State) (cw : CommandWord) (rest : List PortCycle)
    (h : s.port = commandCycle cw :: rest) : step s = exec (decode cw) (s.setPort rest) := by
  rw [step_sampled s _ rest h]
  simp only [edgeOfInputs, commandInputs_commandWord]
  simp [commandInputs]

theorem runCycles_zero (s : State) : runCycles 0 s = .next s := rfl

/-- One cycle that answers a next state, then the rest of the run. -/
theorem runCycles_succ_of_next {n : Nat} {s s' : State} (h : step s = .next s') :
    runCycles (n + 1) s = runCycles n s' := by simp [runCycles, h]

/-- One cycle that answers a next state, then the rest of the observation. -/
theorem observe_succ_of_next {n : Nat} {s s' : State} {o : Observation} (h : step s = .next s')
    (ho : observe n s' = .next o) :
    observe (n + 1) s =
      .next { outs := shownSample s' ++ o.outs, reads := shownRead s' ++ o.reads, final := o.final } := by
  simp [observe, h, ho]

end Sys2Proof.Machine
end

