-- ==== Sys2Proof/Laws/PerInstr.lean ====
section
/-! SUPPORT. Facts about every command, one lemma per constructor. -/

namespace Sys2Proof.Laws

/-- The row of 30_encoding.md R75's table that bears a command's name. -/
def rowNamed (m : String) : List OpcodeRow := opcodeTable.filter (fun r => r.mnemonic == m)

/-- The table has exactly one row of the command's name, and the encoding of a well-formed command has that
row's match under its mask. -/
def EncodingMatchesRow.Statement (i : Instr) : Prop :=
  i.wellFormed = true → ∃ r, rowNamed i.mnemonic = [r] ∧ r.matchesWord (encode i) = true

/-- A word of given fields matches a row whose mask leaves the data out. -/
theorem matchesWord_makeCommandWord (m : String) (op mo : OpField) (a ma pa : RegAddr) (w : Word)
    (h : op &&& mo = op) (ha : a &&& ma = pa) :
    OpcodeRow.matchesWord ⟨m, makeCommandWord op pa 0, makeCommandWord mo ma 0⟩ (makeCommandWord op a w) = true := by
  simp [OpcodeRow.matchesWord, makeCommandWord_and, h, ha]

theorem EncodingMatchesRow.nop : EncodingMatchesRow.Statement (.nop) :=
  fun _ => ⟨_, rfl, matchesWord_makeCommandWord _ 0 3 0x0 0 0 0 rfl rfl⟩

theorem EncodingMatchesRow.step : EncodingMatchesRow.Statement (.step) :=
  fun _ => ⟨_, rfl, matchesWord_makeCommandWord _ 3 3 0x0 0 0 0 rfl rfl⟩

theorem EncodingMatchesRow.rdCtrl : EncodingMatchesRow.Statement (.rdCtrl) :=
  fun _ => ⟨_, rfl, matchesWord_makeCommandWord _ 1 3 0x0 15 0 0 rfl rfl⟩

theorem EncodingMatchesRow.rdInc : EncodingMatchesRow.Statement (.rdInc) :=
  fun _ => ⟨_, rfl, matchesWord_makeCommandWord _ 1 3 0x1 15 1 0 rfl rfl⟩

theorem EncodingMatchesRow.rdBlend : EncodingMatchesRow.Statement (.rdBlend) :=
  fun _ => ⟨_, rfl, matchesWord_makeCommandWord _ 1 3 0x2 15 2 0 rfl rfl⟩

theorem EncodingMatchesRow.rdPhase : EncodingMatchesRow.Statement (.rdPhase) :=
  fun _ => ⟨_, rfl, matchesWord_makeCommandWord _ 1 3 0x3 15 3 0 rfl rfl⟩

theorem EncodingMatchesRow.rdOut : EncodingMatchesRow.Statement (.rdOut) :=
  fun _ => ⟨_, rfl, matchesWord_makeCommandWord _ 1 3 0x4 15 4 0 rfl rfl⟩

theorem EncodingMatchesRow.rdRsvd5 : EncodingMatchesRow.Statement (.rdRsvd5) :=
  fun _ => ⟨_, rfl, matchesWord_makeCommandWord _ 1 3 0x5 15 5 0 rfl rfl⟩

theorem EncodingMatchesRow.rdRsvd6_7 (addr : RegAddr) : EncodingMatchesRow.Statement (.rdRsvd6_7 addr) :=
  fun h => ⟨_, rfl, matchesWord_makeCommandWord _ 1 3 addr 14 6 0 rfl (by revert h; simp only [Instr.wellFormed]; revert addr; decide)⟩

theorem EncodingMatchesRow.rdRsvd8_15 (addr : RegAddr) : EncodingMatchesRow.Statement (.rdRsvd8_15 addr) :=
  fun h => ⟨_, rfl, matchesWord_makeCommandWord _ 1 3 addr 8 8 0 rfl (by revert h; simp only [Instr.wellFormed]; revert addr; decide)⟩

theorem EncodingMatchesRow.wrCtrl (w : Word) : EncodingMatchesRow.Statement (.wrCtrl w) :=
  fun _ => ⟨_, rfl, matchesWord_makeCommandWord _ 2 3 0x0 15 0 w rfl rfl⟩

theorem EncodingMatchesRow.wrInc (w : Word) : EncodingMatchesRow.Statement (.wrInc w) :=
  fun _ => ⟨_, rfl, matchesWord_makeCommandWord _ 2 3 0x1 15 1 w rfl rfl⟩

theorem EncodingMatchesRow.wrBlend (w : Word) : EncodingMatchesRow.Statement (.wrBlend w) :=
  fun _ => ⟨_, rfl, matchesWord_makeCommandWord _ 2 3 0x2 15 2 w rfl rfl⟩

theorem EncodingMatchesRow.wrPhase (w : Word) : EncodingMatchesRow.Statement (.wrPhase w) :=
  fun _ => ⟨_, rfl, matchesWord_makeCommandWord _ 2 3 0x3 15 3 w rfl rfl⟩

theorem EncodingMatchesRow.wrOut (w : Word) : EncodingMatchesRow.Statement (.wrOut w) :=
  fun _ => ⟨_, rfl, matchesWord_makeCommandWord _ 2 3 0x4 15 4 w rfl rfl⟩

theorem EncodingMatchesRow.wrRsvd5 (w : Word) : EncodingMatchesRow.Statement (.wrRsvd5 w) :=
  fun _ => ⟨_, rfl, matchesWord_makeCommandWord _ 2 3 0x5 15 5 w rfl rfl⟩

theorem EncodingMatchesRow.wrRsvd6_7 (addr : RegAddr) (w : Word) : EncodingMatchesRow.Statement (.wrRsvd6_7 addr w) :=
  fun h => ⟨_, rfl, matchesWord_makeCommandWord _ 2 3 addr 14 6 w rfl (by revert h; simp only [Instr.wellFormed]; revert addr; decide)⟩

theorem EncodingMatchesRow.wrRsvd8_15 (addr : RegAddr) (w : Word) : EncodingMatchesRow.Statement (.wrRsvd8_15 addr w) :=
  fun h => ⟨_, rfl, matchesWord_makeCommandWord _ 2 3 addr 8 8 w rfl (by revert h; simp only [Instr.wellFormed]; revert addr; decide)⟩

end Sys2Proof.Laws
end

