-- ==== Sys2Proof/Laws/Waveform.lean ====
section
/-! SUPPORT. The waveforms, rewritten one definition at a time. (Close no goal about them by `rfl` where the two
sides differ inside: the kernel then evaluates the arithmetic on free variables.) -/

namespace Sys2Proof.Machine

@[simp] theorem secondWave_triangle (acc : Word) : secondWave 0#1 acc = triangle acc := if_pos rfl

@[simp] theorem secondWave_saw (acc : Word) : secondWave 1#1 acc = saw acc := if_neg (by decide)

/-- SHAPE is one bit. -/
theorem shape_cases (b : BitVec 1) : b = 0 ∨ b = 1 := by revert b; decide

/-- A sample is the blend of the sine and the second waveform at one phase (R100, R108). -/
theorem blendedSample_eq (acc : Word) (blend : BlendCode) (shape : BitVec 1) :
    blendedSample acc blend shape =
      mix (sine acc) (if shape = 0 then triangle acc else saw acc) blend.toNat := rfl

/-- MIX as a floor: `65536·MIX ≤ p + 32768 < 65536·(MIX + 1)` (R109). -/
theorem mix_bounds (s a : Int) (B : Nat) :
    65536 * mix s a B ≤ s * (65536 - B) + a * B + 32768 ∧
    s * (65536 - B) + a * B + 32768 < 65536 * (mix s a B + 1) := by
  unfold mix asr
  norm_num
  omega

/-- Interpolation as a floor: `4096·(y − s0) ≤ d·f + 2048 < 4096·(y − s0 + 1)` (R105). -/
theorem interpolate_bounds (s0 s1 : Int) (f : Nat) :
    4096 * (interpolate s0 s1 f - s0) ≤ (s1 - s0) * f + 2048 ∧
    (s1 - s0) * f + 2048 < 4096 * (interpolate s0 s1 f - s0 + 1) := by
  unfold interpolate asr
  norm_num
  omega

end Sys2Proof.Machine
end

