-- ==== Sys2Proof/Tests/Slice0.lean ====
section
/-! SUPPORT. Tests: decoding of written-out words, ill-formed commands refused, one step per vector of
spec/95_test_vectors.md, and for each obligation with hypotheses a witness that meets them. -/

namespace Sys2Proof.Tests

open Sys2Proof.Machine

/-! ### Decoding: words written out from 30_encoding.md R71 and R75 -/

/-- Op 00 and op 11, the other 36 bits ignored. -/
theorem test_decode_nop_step :
    decode 0b00000000000000000000000000000000000000 = .nop ∧
    decode 0b00111111111111111111111111111111111111 = .nop ∧
    decode 0b11000000000000000000000000000000000000 = .step ∧
    decode 0b11101010101010101010101010101010101010 = .step := by decide

/-- Op 01, the address in the next four bits, the data ignored. -/
theorem test_decode_read :
    decode 0b01000000000000000000000000000000000000 = .rdCtrl ∧
    decode 0b01000111111111111111111111111111111111 = .rdInc ∧
    decode 0b01001000000000000000000000000000000000 = .rdBlend ∧
    decode 0b01001100000000000000000000000000000001 = .rdPhase ∧
    decode 0b01010000000000000000000000000000000000 = .rdOut ∧
    decode 0b01010110000000000000000000000000000000 = .rdRsvd5 ∧
    decode 0b01011000000000000000000000000000000000 = .rdRsvd6_7 6 ∧
    decode 0b01011100000000000000000000000000000000 = .rdRsvd6_7 7 ∧
    decode 0b01100000000000000000000000000000000000 = .rdRsvd8_15 8 ∧
    decode 0b01111100000000000000000000000000000000 = .rdRsvd8_15 15 := by decide

/-- Op 10, the address, then the 32 data bits. -/
theorem test_decode_write :
    decode 0b10000011111111111111111111111111111110 = .wrCtrl 0xFFFFFFFE ∧
    decode 0b10000101000000000000000000000000000000 = .wrInc 0x40000000 ∧
    decode 0b10001000000000000000110000000000000000 = .wrBlend 0x30000 ∧
    decode 0b10001101110000000000000000000000000000 = .wrPhase 0x70000000 ∧
    decode 0b10010000000000000000000001001000110100 = .wrOut 0x1234 ∧
    decode 0b10010100000000000000000000000000000001 = .wrRsvd5 1 ∧
    decode 0b10011100000000000000000000000000000101 = .wrRsvd6_7 7 5 ∧
    decode 0b10111111111111111111111111111111111111 = .wrRsvd8_15 15 0xFFFFFFFF := by decide

/-- A number with a bit above the command word is rejected by name; the host's word is read. -/
theorem test_decode_number :
    decodeTableWord 40 0x4000000000 = none ∧ decodeTableWord 40 0x3000000000 = some .step ∧
    decodeTableWord 40 0x21028DDFB9 = some (.wrInc 0x028DDFB9) := by decide

/-- Encodings the spec writes out (95_test_vectors.md 2.6, 2.7; R78). -/
theorem test_encode :
    encode (.wrCtrl 0xFFFFFFFF) = 0x20FFFFFFFF ∧ encode (.wrOut 0x1234) = 0x2400001234 ∧
    encode (.wrRsvd6_7 7 5) = 0x2700000005 ∧ encode (.rdRsvd8_15 15) = 0x1F00000000 ∧
    encode .step = 0x3000000000 := by decide

/-! ### Ill-formed commands, one for each check -/

theorem test_addrIn6To7_refuses :
    (Instr.rdRsvd6_7 5).wellFormed = false ∧ (Instr.wrRsvd6_7 8 0).wellFormed = false := by decide

theorem test_addrIn8To15_refuses :
    (Instr.rdRsvd8_15 7).wellFormed = false ∧ (Instr.wrRsvd8_15 0 1).wellFormed = false := by decide

theorem test_immediate_range :
    (AsmCommand.wr .inc (2 ^ 32)).wellFormed = false ∧
    (AsmCommand.wr .inc (-(2 ^ 31) - 1)).wellFormed = false := by decide

/-! ### One step each, from 95_test_vectors.md -/

/-- A state with the four registers a STEP reads, the others as after reset. -/
def stateWith (acc inc : Word) (blend : BlendCode) (shape : BitVec 1) : State :=
  { State.reset with acc := acc, inc := inc, blend := blend, shape := shape }

/-- The state at the end of program P3 (section 2.7). -/
def endOfP3 : State := { stateWith 0x88000000 0x08000000 0x08000 1 with out := BitVec.ofInt 16 (-18556) }

/-- S11, half blend of sine and saw; S12, of sine and triangle. -/
theorem test_step_half_blend :
    (stepCommand (stateWith 0x70000000 0x08000000 32768 1)).out.toInt = 18557 ∧
    (stepCommand (stateWith 0x00000000 0x20000000 32768 0)).out.toInt = 19777 := by decide

/-- S7 saturated peak, S8 trough, S10 saw jump, S14 tie in the negative half, S17 blend code 65535, S20. -/
theorem test_step_corners :
    (stepCommand (stateWith 0x20000000 0x20000000 65536 0)).out.toInt = 32767 ∧
    (stepCommand (stateWith 0xA0000000 0x20000000 65536 0)).out.toInt = -32768 ∧
    (stepCommand (stateWith 0x7FFF0000 0x00010000 65536 1)).out.toInt = -32768 ∧
    (stepCommand (stateWith 0x80000000 0x00200000 0 0)).out.toInt = -100 ∧
    (stepCommand (stateWith 0xB0000000 0x10000000 65535 1)).out.toInt = -16384 ∧
    (stepCommand (stateWith 0xCF200000 0 0 0)).out.toInt = -30534 := by decide

/-- Rows of section 2.5. -/
theorem test_mix :
    mix (-1) 0 32768 = 0 ∧ mix 3 0 32768 = 2 ∧ mix 32767 (-32768) 1 = 32766 ∧
    mix 32767 (-32768) 65535 = -32767 ∧ mix (-32768) 32767 32768 = 0 := by decide

/-- The transcription's checksum (R103). -/
theorem test_quarterRows_sum : (quarterRows.map List.sum).sum = 5356550 := by decide

theorem test_rdCtrl : (readCommand 0x0 endOfP3).rdata = 0x00000001 := by decide
theorem test_rdInc : (readCommand 0x1 endOfP3).rdata = 0x08000000 := by decide
theorem test_rdBlend : (readCommand 0x2 endOfP3).rdata = 0x00008000 := by decide
theorem test_rdPhase : (readCommand 0x3 endOfP3).rdata = 0x88000000 := by decide
theorem test_rdOut : (readCommand 0x4 endOfP3).rdata = 0xFFFFB784 := by decide
theorem test_rdReserved : (readCommand 0xF endOfP3).rdata = 0 ∧ (readCommand 0x5 endOfP3).rdv = true := by decide
theorem test_wrCtrl : (writeCommand 0x0 0xFFFFFFFE endOfP3).shape = 0 := by decide
theorem test_wrInc : (writeCommand 0x1 0xFFFFFFFF endOfP3).inc = 0xFFFFFFFF := by decide
/-- Section 2.6's clamp on both sides. -/
theorem test_wrBlend :
    (writeCommand 0x2 0x00030000 endOfP3).blend = 0x10000 ∧ (writeCommand 0x2 0x80000000 endOfP3).blend = 0 ∧
    (writeCommand 0x2 0x0000FFFF endOfP3).blend = 0x0FFFF := by decide
theorem test_wrPhase :
    (writeCommand 0x3 0xDEADBEEF endOfP3).acc = 0xDEADBEEF ∧
    (writeCommand 0x3 0xDEADBEEF endOfP3).out.toInt = -18556 := by decide
theorem test_wrIgnored :
    writeCommand 0x4 0x1234 endOfP3 = endOfP3 ∧ writeCommand 0x7 5 endOfP3 = endOfP3 := by decide

/-- The host's word runs as the first command after reset; a reset in the same cycle discards it (P6). -/
theorem test_withFetchWord :
    step (State.reset.withFetchWord 40 0x2140000000) = .next { State.reset with inc := 0x40000000 } := rfl

theorem test_reset_beats_write :
    step (endOfP3.setPort [.sampled { rst := true, cmdValid := true, cmdOp := 2, cmdAddr := 1, cmdWdata := 0x55555555 }])
      = .next State.reset := rfl

/-! ### Witnesses: concrete states and operands that meet each obligation's hypotheses -/

/-- A command cycle of three fields. -/
def cyc (op : OpField) (a : RegAddr) (w : Word) : PortCycle := commandCycle (makeCommandWord op a w)

/-- Inputs that present a command of three fields. -/
def ins (op : OpField) (a : RegAddr) (w : Word) : PortInputs :=
  { rst := false, cmdValid := true, cmdOp := op, cmdAddr := a, cmdWdata := w }

/-- DecodeOfEncodeIsTheCommand, ReservedReadReturnsZero, ReservedWriteIsIgnored: both ends of each range. -/
theorem witness_wellFormed :
    (Instr.rdRsvd6_7 6).wellFormed = true ∧ (Instr.rdRsvd6_7 7).wellFormed = true ∧
    (Instr.rdRsvd8_15 8).wellFormed = true ∧ (Instr.rdRsvd8_15 15).wellFormed = true ∧
    (Instr.wrRsvd6_7 6 0).wellFormed = true ∧ (Instr.wrRsvd6_7 7 5).wellFormed = true ∧
    (Instr.wrRsvd8_15 8 0).wellFormed = true ∧ (Instr.wrRsvd8_15 15 1).wellFormed = true ∧
    5 ≤ (0x5 : RegAddr).toNat ∧ 5 ≤ (0xF : RegAddr).toNat := by decide

/-- OneOpcodeRowMatchesEachWord: a cycle with cmd_valid = 0 and a STEP on the other inputs. -/
theorem witness_OneOpcodeRowMatchesEachWord :
    (endOfP3.setPort [.sampled { rst := false, cmdValid := false, cmdOp := 3, cmdAddr := 1, cmdWdata := 2 }]).port =
      .sampled { rst := false, cmdValid := false, cmdOp := 3, cmdAddr := 1, cmdWdata := 2 } :: [] := rfl

/-- AssembledCommandsEncodeAsWritten: the immediates at both ends of the range and at 0. -/
theorem witness_AssembledCommandsEncodeAsWritten :
    (AsmCommand.wr .out (-(2 ^ 31))).wellFormed = true ∧ (AsmCommand.wr (.a 9) (2 ^ 32 - 1)).wellFormed = true ∧
    (AsmCommand.wr .ctrl 0).wellFormed = true := by decide

/-- PseudoInstructionsSetTheNearestCode and RdIncReturnsInc: an expansion of SETFREQ 440; operands of each clause,
at the lower ends, and at b = 1. -/
theorem witness_PseudoInstructionsSetTheNearestCode :
    (Pseudo.setFreq 440).expandsTo 44100 [.wrInc 0x028DDFB9] ∧
    ((0 : ℝ) < 44100 ∧ (0 : ℝ) ≤ 0 ∧ (0 : ℝ) < 44100 * (1 - 1 / 2 ^ 33)) ∧
    ((0 : ℝ) < 44100 ∧ (0 : ℝ) ≤ 440 ∧ (440 : ℝ) < 44100 * (1 - 1 / 2 ^ 33)) ∧
    ((0 : ℝ) ≤ 1 ∧ (1 : ℝ) ≤ 1) ∧ ((0 : ℝ) ≤ 0 ∧ (0 : ℝ) ≤ 1) ∧
    ((0 : ℝ) ≤ 0 ∧ (0 : ℝ) < 2 * Real.pi * (1 - 1 / 2 ^ 33)) := by
  refine ⟨⟨by norm_num, 0x028DDFB9, ⟨42852281, ?_, by decide⟩, rfl⟩, ?_, ?_, ?_, ?_, le_refl _, ?_⟩
  · unfold isFloor; norm_num
  · norm_num
  · norm_num
  · norm_num
  · norm_num
  · have := Real.pi_pos
    positivity

/-- PseudoInstructionsReduceAndClamp: a sample rate; the least factor with an expansion, and the least beyond
the greatest. -/
theorem witness_PseudoInstructionsReduceAndClamp :
    (0 : ℝ) < 44100 ∧ ((-32768 - 1 / 2 ^ 17 : ℝ) ≤ -32768 - 1 / 2 ^ 17 ∧ (-32768 - 1 / 2 ^ 17 : ℝ) < 32768 - 1 / 2 ^ 17) ∧
    ((32768 - 1 / 2 ^ 17 : ℝ) < -32768 - 1 / 2 ^ 17 ∨ (32768 - 1 / 2 ^ 17 : ℝ) ≤ 32768 - 1 / 2 ^ 17) :=
  ⟨by norm_num, ⟨le_refl _, by norm_num⟩, .inr (le_refl _)⟩

/-- RepeatAndShapePseudoInstructionsRun: one and two STEPs and NOPs, the two shapes and PHASE0, each driven. -/
theorem witness_RepeatAndShapePseudoInstructionsRun (cs : List Instr) :
    (Pseudo.stepN 1).expandsTo 44100 [.step] ∧ (Pseudo.stepN 2).expandsTo 44100 [.step, .step] ∧
    (Pseudo.waitN 1).expandsTo 44100 [.nop] ∧ (Pseudo.waitN 2).expandsTo 44100 [.nop, .nop] ∧
    Pseudo.shapeTri.expandsTo 44100 [.wrCtrl 0] ∧ Pseudo.shapeSaw.expandsTo 44100 [.wrCtrl 1] ∧
    Pseudo.phase0.expandsTo 44100 [.wrPhase 0] ∧
    (endOfP3.setPort (cs.map (fun i => commandCycle (encode i)) ++ [])).port =
      cs.map (fun i => commandCycle (encode i)) ++ [] :=
  ⟨⟨le_refl _, rfl⟩, ⟨by decide, rfl⟩, ⟨le_refl _, rfl⟩, ⟨by decide, rfl⟩, rfl, rfl, rfl, rfl⟩

/-- StepRunsTheDecodedCommand: a READ of the top reserved address. -/
theorem witness_StepRunsTheDecodedCommand :
    (endOfP3.setPort [.sampled (ins 1 15 7)]).port = .sampled (ins 1 15 7) :: [] ∧ (ins 1 15 7).rst = false ∧
    (ins 1 15 7).cmdValid = true ∧
    decode (makeCommandWord (ins 1 15 7).cmdOp (ins 1 15 7).cmdAddr (ins 1 15 7).cmdWdata) = .rdRsvd8_15 15 ∧
    (Instr.rdRsvd8_15 15).wellFormed = true := by decide

theorem witness_AfterTheLastListedCycleTheHostIsIdle : endOfP3.port = [] := rfl

/-- ResetHeldClearsEveryRegister: two reset cycles, the second over a STEP, from a state with BLEND = 131071. -/
theorem witness_ResetHeldClearsEveryRegister :
    (∀ q ∈ [resetInputs, { ins 3 0 0 with rst := true }], q.rst = true) ∧
    ((stateWith 1 2 0x1FFFF 1).setPort
      [.sampled resetInputs, .sampled { ins 3 0 0 with rst := true }, cyc 3 0 0]).port =
      [resetInputs, { ins 3 0 0 with rst := true }].map PortCycle.sampled ++ [cyc 3 0 0] := by decide

/-- ResetDiscardsTheCommand; ReadDataAppearsInTheNextCycle and SampleAppearsInTheNextCycle, third clause. -/
theorem witness_ResetDiscardsTheCommand :
    ({ ins 2 1 0x55555555 with rst := true } : PortInputs).rst = true ∧
    ({ ins 2 1 0x55555555 with rst := true } : PortInputs).cmdValid = true ∧
    (endOfP3.setPort [.sampled { ins 2 1 0x55555555 with rst := true }]).port =
      .sampled { ins 2 1 0x55555555 with rst := true } :: [] := by decide

/-- SilenceAfterResetUntilAWrite: after the reset a STEP, a READ, an idle cycle and a reset over a WRITE. -/
theorem witness_SilenceAfterResetUntilAWrite :
    resetInputs.rst = true ∧
    (∀ p ∈ [ins 3 0 0, ins 1 4 0, idleInputs, { ins 2 1 1 with rst := true }],
      p.rst = true ∨ p.cmdValid = false ∨ p.cmdOp ≠ 0b10) ∧
    (endOfP3.setPort (.sampled resetInputs ::
      [ins 3 0 0, ins 1 4 0, idleInputs, { ins 2 1 1 with rst := true }].map PortCycle.sampled ++ [cyc 2 1 1])).port =
      .sampled resetInputs ::
        [ins 3 0 0, ins 1 4 0, idleInputs, { ins 2 1 1 with rst := true }].map PortCycle.sampled ++ [cyc 2 1 1] := by
  decide

theorem witness_NothingTrapsHaltsStallsOrRefuses :
    (endOfP3.setPort [.sampled (ins 3 0 0), .disturbed .powerEvent]).port =
      [ins 3 0 0].map PortCycle.sampled ++ [.disturbed .powerEvent] := rfl

/-- DisturbedCycleIsRefused: each of the three disturbances. -/
theorem witness_DisturbedCycleIsRefused :
    (endOfP3.setPort [.disturbed .undefinedInput]).port = .disturbed .undefinedInput :: [] ∧
    (endOfP3.setPort [.disturbed .unsampledReset]).port = .disturbed .unsampledReset :: [] ∧
    (endOfP3.setPort [.disturbed .powerEvent]).port = .disturbed .powerEvent :: [] := by decide

theorem witness_LaterCyclesChangeNothingEarlier : runCycles 1 State.reset = .next State.reset := rfl

/-- BackToBackCommandsSeeEachOther: the three examples, each an instance of the first clause too. -/
theorem witness_BackToBackCommandsSeeEachOther :
    (endOfP3.setPort [cyc 2 1 5, cyc 3 0 0]).port =
      commandCycle (makeCommandWord 0b10 0x1 5) :: commandCycle (makeCommandWord 0b11 0 0) :: [] ∧
    (endOfP3.setPort [cyc 3 0 0, cyc 1 4 0]).port =
      commandCycle (makeCommandWord 0b11 0 0) :: commandCycle (makeCommandWord 0b01 0x4 0) :: [] ∧
    (endOfP3.setPort [cyc 2 2 5, cyc 1 2 0]).port =
      commandCycle (makeCommandWord 0b10 0x2 5) :: commandCycle (makeCommandWord 0b01 0x2 0) :: [] := by decide

/-- StepAdvancesThenBlends, PhaseAdvanceWrapsModulo, ShapeSelectsTheSecondWaveform, EverySampleFitsSixteenBits,
StepRealisesTheReferenceOscillator: legal codes at both ends, both shapes, and each corner's premise. -/
theorem witness_step_statements :
    (stateWith 0xFFFFFFFF 1 65536 1).blend.toNat ≤ 65536 ∧ (stateWith 0 0 0 0).blend.toNat ≤ 65536 ∧
    (stateWith 7 0 5 1).inc = 0 ∧ (stateWith 7 0x80000000 5 1).inc = 0x80000000 ∧ (stateWith 1 2 0 1).blend = 0 ∧
    (stateWith 1 2 65536 0).blend.toNat = 65536 ∧ (stateWith 1 2 65536 0).shape = 0 ∧
    (stateWith 1 2 65536 1).shape = 1 ∧
    ((stateWith 0 0x40000000 0 0).acc = 0 ∧ (stateWith 0 0x40000000 0 0).inc = 0x40000000 ∧
      (stateWith 0 0x40000000 0 0).blend = 0 ∧ (stateWith 0 0x40000000 0 0).shape = 0) := by decide

/-- StepBeyondTheLargestBlendCodeRuns: the least and the greatest such code. -/
theorem witness_StepBeyondTheLargestBlendCodeRuns :
    65536 < (stateWith 1 2 65537 0).blend.toNat ∧ 65536 < (stateWith 1 2 131071 1).blend.toNat := by decide

/-- NthStepEvaluatesAtAdvancedPhase: two STEPs after a write of the top phase; one after a write of 0. -/
theorem witness_NthStepEvaluatesAtAdvancedPhase :
    (stateWith 1 2 65536 0).blend.toNat ≤ 65536 ∧
    ((stateWith 1 2 65536 0).setPort (commandCycle (encode (.wrPhase 0xFFFFFFFF)) ::
      List.replicate (1 + 1) (commandCycle (encode .step)) ++ [])).port =
      commandCycle (encode (.wrPhase 0xFFFFFFFF)) ::
        List.replicate (1 + 1) (commandCycle (encode .step)) ++ [] ∧
    ((stateWith 1 2 65536 0).setPort [commandCycle (encode (.wrPhase 0)), commandCycle (encode .step)]).port =
      commandCycle (encode (.wrPhase 0)) :: commandCycle (encode .step) :: [] := by decide

/-- QuarterTableIsTheRoundedSine, FullCycleTableIsTheRoundedSine, SineInterpolatesAdjacentEntries (f = 0 too),
TriangleIsTheSineAlignedTriangle and SawIsTheSignedTopHalfOfThePhase: each clause's range at its ends. -/
theorem witness_waveform_statements :
    (256 ≤ 256 ∧ 0 ≤ 256 ∧ 255 < 256) ∧ (1023 < 1024 ∧ 4095 < 4096 ∧ 1023 < 1024 ∧ 0 < 4096) ∧
    (0 < 0x4000 ∧ 0x3FFF < 0x4000 ∧ 0x3FFF < 65536) ∧ (0x4000 ≤ 0x4000 ∧ 0x4000 < 0xC000) ∧
    (0x4000 ≤ 0xBFFF ∧ 0xBFFF < 0xC000) ∧ (0xC000 ≤ 0xC000 ∧ 0xC000 ≤ 65535 ∧ 65535 < 65536) ∧
    (0x7FFF < 0x8000 ∧ 0x8000 ≤ 0x8000 ∧ 0x8000 ≤ 0xFFFF) := by decide

/-- MixRoundsTheLinearBlend: the extreme operands. -/
theorem witness_MixRoundsTheLinearBlend :
    (-32768 : Int) ≤ -32768 ∧ (-32768 : Int) ≤ 32767 ∧ (32767 : Int) ≤ 32767 ∧ 65536 ≤ 65536 := by decide

/-- StepRealisesTheReferenceOscillator: values of the real-valued variables for both shapes exist. -/
theorem witness_StepRealisesTheReferenceOscillator (s t : State) :
    ∃ φ b alt : ℝ, φ = 2 * Real.pi * (t.acc.toNat : ℝ) / 2 ^ 32 ∧ b = (s.blend.toNat : ℝ) / 65536 ∧
      alt = (if s.shape = 0 then 2 / Real.pi * Real.arcsin (Real.sin φ)
             else 2 * Int.fract (φ / (2 * Real.pi) + 1 / 2) - 1) := ⟨_, _, _, rfl, rfl, rfl⟩

/-- NopClearsOnlyTheStrobes: an idle cycle over a STEP's inputs, then a NOP; and a STEP's next state. -/
theorem witness_NopClearsOnlyTheStrobes :
    (∀ q ∈ [{ ins 3 0 0 with cmdValid := false }, ins 0 15 1], q.rst = false ∧ (q.cmdValid = false ∨ q.cmdOp = 0b00)) ∧
    (endOfP3.setPort ([{ ins 3 0 0 with cmdValid := false }, ins 0 15 1].map PortCycle.sampled ++ [])).port =
      [{ ins 3 0 0 with cmdValid := false }, ins 0 15 1].map PortCycle.sampled ++ [] := by decide

/-- The premises `exec … = .next …` of the READ, WRITE and STEP statements, on the state of section 2.7. -/
theorem witness_exec_answers :
    exec .step endOfP3 = .next (stepCommand endOfP3) ∧
    exec (.wrCtrl 0xFFFFFFFF) endOfP3 = .next (writeCommand 0 0xFFFFFFFF endOfP3) ∧
    exec (.wrInc 0x80000000) endOfP3 = .next (writeCommand 1 0x80000000 endOfP3) ∧
    exec (.wrInc 0) endOfP3 = .next (writeCommand 1 0 endOfP3) ∧
    exec (.wrInc 0x40000000) State.reset = .next (writeCommand 1 0x40000000 State.reset) ∧
    exec (.wrBlend 0x00030000) endOfP3 = .next (writeCommand 2 0x00030000 endOfP3) ∧
    exec (.wrBlend 0x8000) endOfP3 = .next (writeCommand 2 0x8000 endOfP3) ∧
    exec (.wrPhase 0x70000000) endOfP3 = .next (writeCommand 3 0x70000000 endOfP3) ∧
    exec (.wrOut 0x1234) endOfP3 = .next (writeCommand 4 0x1234 endOfP3) :=
  ⟨rfl, rfl, rfl, rfl, rfl, rfl, rfl, rfl, rfl⟩

/-- The same through the decoder: a WRITE to each end of the map, then a READ or a WRITE of it
(ReadReturnsTheAddressedRegister, WriteChangesOnlyItsTarget, ReservedWriteIsIgnored,
ReadsAndWritesAreIdempotent). -/
theorem witness_decoded_exec_answers (w w' : Word) (s : State) (a : RegAddr) :
    exec (decode (makeCommandWord 0b10 a w)) s = .next (writeCommand a w s) ∧
    exec (decode (makeCommandWord 0b10 a w')) (writeCommand a w s) = .next (writeCommand a w' (writeCommand a w s)) ∧
    exec (decode (makeCommandWord 0b01 a w')) (writeCommand a w s) = .next (readCommand a (writeCommand a w s)) := by
  refine ⟨?_, ?_, ?_⟩ <;> rw [decode_makeCommandWord]
  · exact exec_decodeWrite a w s
  · exact exec_decodeWrite a w' _
  · exact exec_decodeRead a _

/-- RdOutReturnsTheSampleSignExtended: a negative sample, −18556, bits 16 and 31; a STEP that gives 32767 (S2).
ReadReturnsTheAddressedRegister: INC = 0x40000000. RdPhase and WrPhase: a legal code. WrInc: w at 2^31. -/
theorem witness_register_values :
    endOfP3.out.toInt < 0 ∧ endOfP3.out.toInt = -18556 ∧ (16 ≤ 16 ∧ 31 < 32) ∧
    (stepCommand (stateWith 0 0x40000000 0 0)).out.toInt = 32767 ∧
    (stateWith 0 0x40000000 0 0).inc = 0x40000000 ∧ endOfP3.blend.toNat ≤ 65536 ∧
    2 ^ 31 ≤ (0x80000000 : Word).toNat ∧ (0x1 : RegAddr) ≠ 0x0 ∧ 4 ≤ (0x4 : RegAddr).toNat := by decide

/-- ReadReturnsTheAddressedRegister, fifth clause; ReadDataAppearsInTheNextCycle, with no cycle and with a WRITE,
a STEP and an idle cycle after the READ; two READs in a row. -/
theorem witness_ReadDataAppearsInTheNextCycle :
    (endOfP3.setPort [cyc 1 4 0]).port = commandCycle (makeCommandWord 0b01 4 0) :: [] ∧
    (∀ p ∈ [ins 2 4 1, ins 3 0 0, idleInputs], p.rst = false ∧ (p.cmdValid = true → p.cmdOp ≠ 0b01)) ∧
    (endOfP3.setPort (cyc 1 4 0 :: [ins 2 4 1, ins 3 0 0, idleInputs].map PortCycle.sampled ++ [])).port =
      commandCycle (makeCommandWord 0b01 4 0) ::
        [ins 2 4 1, ins 3 0 0, idleInputs].map PortCycle.sampled ++ [] ∧
    (endOfP3.setPort [cyc 1 4 0, cyc 1 15 0]).port =
      commandCycle (makeCommandWord 0b01 4 0) :: commandCycle (makeCommandWord 0b01 15 0) :: [] := by decide

/-- SampleAppearsInTheNextCycle. -/
theorem witness_SampleAppearsInTheNextCycle :
    (∀ p ∈ [ins 2 1 1, ins 1 4 0, idleInputs], p.rst = false ∧ (p.cmdValid = true → p.cmdOp ≠ 0b11)) ∧
    (endOfP3.setPort (cyc 3 0 0 :: [ins 2 1 1, ins 1 4 0, idleInputs].map PortCycle.sampled ++ [])).port =
      commandCycle (makeCommandWord 0b11 0 0) ::
        [ins 2 1 1, ins 1 4 0, idleInputs].map PortCycle.sampled ++ [] ∧
    (endOfP3.setPort [cyc 3 0 0, cyc 3 1 1]).port =
      commandCycle (makeCommandWord 0b11 0 0) :: commandCycle (makeCommandWord 0b11 1 1) :: [] := by decide

/-- ReadsAndWritesAreIdempotent, second clause: a READ and an idle cycle between. -/
theorem witness_ReadsAndWritesAreIdempotent :
    (∀ p ∈ [ins 1 2 0, idleInputs], p.rst = false ∧ (p.cmdValid = true → p.cmdOp = 0b00 ∨ p.cmdOp = 0b01)) ∧
    (endOfP3.setPort (cyc 1 4 0 :: [ins 1 2 0, idleInputs].map PortCycle.sampled ++ cyc 1 4 7 :: [])).port =
      commandCycle (makeCommandWord 0b01 4 0) :: [ins 1 2 0, idleInputs].map PortCycle.sampled ++
        commandCycle (makeCommandWord 0b01 4 7) :: [] := by decide

/-- EveryStepKeepsTheInvariant: the state after reset has the invariant and steps. -/
theorem witness_EveryStepKeepsTheInvariant : State.reset.Inv ∧ step State.reset = .next State.reset :=
  ⟨⟨by simp [State.blendLegal], by simp [State.strobesExclusive], by simp [State.sampleCurrent],
    by simp [State.readCurrent]⟩, rfl⟩

/-- OnlyTheNamedEventsChangeEachRegister: a WRITE to PHASE that changes ACC. -/
theorem witness_OnlyTheNamedEventsChangeEachRegister :
    (endOfP3.setPort [.sampled (ins 2 3 1)]).port = .sampled (ins 2 3 1) :: [] ∧
    decode (makeCommandWord (ins 2 3 1).cmdOp (ins 2 3 1).cmdAddr (ins 2 3 1).cmdWdata) = .wrPhase 1 ∧
    step (endOfP3.setPort [.sampled (ins 2 3 1)]) = .next { endOfP3 with acc := 1 } ∧
    (1 : Word) ≠ endOfP3.acc := ⟨rfl, by decide, rfl, by decide⟩

/-- PortRegistersAreNotObservedIndirectly: two states that differ in RDATA, RDV and OUTV only. -/
theorem witness_PortRegistersAreNotObservedIndirectly :
    ({ endOfP3 with rdata := 7, rdv := true, outv := true } : State).acc = endOfP3.acc ∧
    ({ endOfP3 with rdata := 7, rdv := true, outv := true } : State).out = endOfP3.out ∧
    ({ endOfP3 with rdata := 7, rdv := true, outv := true } : State).port = endOfP3.port ∧
    observe 1 endOfP3 = .next { outs := [], reads := [], final := endOfP3 } := ⟨rfl, rfl, rfl, rfl⟩

/-- InstancesDoNotObserveEachOther: two instances, each stepping once, in one order. -/
theorem witness_InstancesDoNotObserveEachOther :
    Platform.stepInstance [endOfP3, State.reset.withFetchWord 40 0x2100000001] ⟨1, by decide⟩ =
      .next [endOfP3, { State.reset with inc := 1 }] ∧
    Platform.stepInstance [endOfP3, { State.reset with inc := 1 }] ⟨0, by decide⟩ =
      .next [endOfP3, { State.reset with inc := 1 }] := ⟨rfl, rfl⟩

end Sys2Proof.Tests
end

/-! ## Real sine: Taylor polynomial and chord

What the table and the interpolation of R103 to R105 are measured against. -/

namespace Sys2Proof.Proofs

/-- The Taylor polynomial of the sine up to degree 15. -/
noncomputable def sinTaylor (x : ℝ) : ℝ :=
  x - x ^ 3 / 6 + x ^ 5 / 120 - x ^ 7 / 5040 + x ^ 9 / 362880 - x ^ 11 / 39916800 +
    x ^ 13 / 6227020800 - x ^ 15 / 1307674368000

theorem sinTaylor_eq_im (x : ℝ) :
    sinTaylor x = (∑ m ∈ Finset.range 16, (x * Complex.I) ^ m / (m.factorial : ℂ)).im := by
  norm_num [sinTaylor, Finset.sum_range_succ, Nat.factorial, pow_succ]
  ring

/-- The remainder is that of the exponential series on the imaginary axis, cut after degree 15. -/
theorem abs_sin_sub_sinTaylor_le {x : ℝ} (hx : |x| ≤ 8) :
    |Real.sin x - sinTaylor x| ≤ |x| ^ 16 / 10461394944000 := by
  have hnorm : ‖(x : ℂ) * Complex.I‖ = |x| := by simp
  have hexp := Complex.exp_bound' (x := x * Complex.I) (n := 16) (by rw [hnorm]; norm_num; linarith)
  rw [hnorm] at hexp
  calc |Real.sin x - sinTaylor x|
      = |(Complex.exp (x * Complex.I) -
          ∑ m ∈ Finset.range 16, (x * Complex.I) ^ m / (m.factorial : ℂ)).im| := by
        rw [Complex.sub_im, Complex.exp_ofReal_mul_I_im, sinTaylor_eq_im]
    _ ≤ |x| ^ 16 / (Nat.factorial 16 : ℝ) * 2 := (Complex.abs_im_le_norm _).trans hexp
    _ = |x| ^ 16 / 10461394944000 := by norm_num [Nat.factorial]; ring

/-- The second derivative of the sine is at most 1 either way, so half a square added to it bends up. -/
theorem convexOn_half_sq_add_mul_sin {e : ℝ} (he : |e| ≤ 1) :
    ConvexOn ℝ Set.univ (fun x => x ^ 2 / 2 + e * Real.sin x) := by
  have hd (x : ℝ) : HasDerivAt (fun x => x ^ 2 / 2 + e * Real.sin x) (x + e * Real.cos x) x := by
    convert! ((hasDerivAt_pow 2 x).div_const 2).add ((Real.hasDerivAt_sin x).const_mul e) using 1
    ring
  have hd2 (x : ℝ) : HasDerivAt (fun x => x + e * Real.cos x) (1 - e * Real.sin x) x := by
    convert! (hasDerivAt_id x).add ((Real.hasDerivAt_cos x).const_mul e) using 1
    ring
  have hderiv : deriv (fun x => x ^ 2 / 2 + e * Real.sin x) = fun x => x + e * Real.cos x :=
    funext fun x => (hd x).deriv
  refine convexOn_univ_of_deriv2_nonneg (fun x => (hd x).differentiableAt) ?_ fun x => ?_
  · rw [hderiv]
    exact fun x => (hd2 x).differentiableAt
  · have hle : |e * Real.sin x| ≤ 1 := by
      rw [abs_mul]
      exact mul_le_one₀ he (abs_nonneg _) (Real.abs_sin_le_one x)
    simp only [Function.iterate_succ, Function.iterate_zero, Function.comp_apply, id_eq, hderiv, (hd2 x).deriv]
    linarith [le_of_abs_le hle]

/-- Between two points `h` apart the chord of the sine stays within `h² / 8` of it. -/
theorem abs_chord_sub_sin_le (a h l : ℝ) (h0 : 0 ≤ l) (h1 : l ≤ 1) :
    |((1 - l) * Real.sin a + l * Real.sin (a + h)) - Real.sin (a + l * h)| ≤ h ^ 2 / 8 := by
  have hpar : l * (1 - l) * h ^ 2 / 2 ≤ h ^ 2 / 8 := by nlinarith [sq_nonneg ((2 * l - 1) * h)]
  have hconvex {e : ℝ} (he : |e| ≤ 1) :
      e * Real.sin (a + l * h) - e * ((1 - l) * Real.sin a + l * Real.sin (a + h)) ≤
        l * (1 - l) * h ^ 2 / 2 := by
    have := (convexOn_half_sq_add_mul_sin he).2 (Set.mem_univ a) (Set.mem_univ (a + h))
      (sub_nonneg.mpr h1) h0 (sub_add_cancel 1 l)
    simp only [smul_eq_mul, show (1 - l) * a + l * (a + h) = a + l * h by ring] at this
    linarith
  have hup := hconvex (e := 1) (by norm_num)
  have hdown := hconvex (e := -1) (by norm_num)
  rw [abs_le]
  constructor <;> linarith

/-- A weighted mean moves by at most the weighted mean of what its two parts move. -/
theorem abs_mean_sub_mean_le {x y x' y' l e e' : ℝ} (h0 : 0 ≤ l) (h1 : l ≤ 1)
    (hx : |x - x'| ≤ e) (hy : |y - y'| ≤ e') :
    |((1 - l) * x + l * y) - ((1 - l) * x' + l * y')| ≤ (1 - l) * e + l * e' := by
  calc |((1 - l) * x + l * y) - ((1 - l) * x' + l * y')|
      = |(1 - l) * (x - x') + l * (y - y')| := by ring_nf
    _ ≤ |(1 - l) * (x - x')| + |l * (y - y')| := abs_add_le _ _
    _ = (1 - l) * |x - x'| + l * |y - y'| := by
        rw [abs_mul, abs_mul, abs_of_nonneg h0, abs_of_nonneg (sub_nonneg.mpr h1)]
    _ ≤ (1 - l) * e + l * e' :=
        add_le_add (mul_le_mul_of_nonneg_left hx (sub_nonneg.mpr h1)) (mul_le_mul_of_nonneg_left hy h0)

end Sys2Proof.Proofs

/-! ## The three real waves

Each as a function of the phase in the unit its fixed-point form counts in: table steps for the sine, steps of
acc[31:16] for the triangle and the saw. -/

namespace Sys2Proof.Proofs

/-- The sine of amplitude 32767, at a phase of `u` table steps. -/
noncomputable def sineWave (u : ℝ) : ℝ := 32767 * Real.sin (2 * Real.pi * u / 1024)

/-- The triangle of R2 with amplitude 32768, at a phase of `u` steps of acc[31:16]. -/
noncomputable def triangleWave (u : ℝ) : ℝ :=
  32768 * (2 / Real.pi * Real.arcsin (Real.sin (2 * Real.pi * u / 65536)))

/-- The saw of R2 with amplitude 32768, at a phase of `u` steps of acc[31:16]. -/
noncomputable def sawWave (u : ℝ) : ℝ := 32768 * (2 * Int.fract (u / 65536 + 1 / 2) - 1)

theorem sineWave_add_turn (u : ℝ) : sineWave (u + 1024) = sineWave u := by
  rw [sineWave, show 2 * Real.pi * (u + 1024) / 1024 = 2 * Real.pi * u / 1024 + 2 * Real.pi by ring,
    Real.sin_add_two_pi, ← sineWave]

theorem sineWave_half_turn_sub (u : ℝ) : sineWave (512 - u) = sineWave u := by
  rw [sineWave, show 2 * Real.pi * (512 - u) / 1024 = Real.pi - 2 * Real.pi * u / 1024 by ring,
    Real.sin_pi_sub, ← sineWave]

theorem sineWave_sub_half_turn (u : ℝ) : sineWave (u - 512) = -sineWave u := by
  rw [sineWave, show 2 * Real.pi * (u - 512) / 1024 = 2 * Real.pi * u / 1024 - Real.pi by ring,
    Real.sin_sub_pi, mul_neg, ← sineWave]

theorem sineWave_turn_sub (u : ℝ) : sineWave (1024 - u) = -sineWave u := by
  rw [← sineWave_sub_half_turn, ← sineWave_half_turn_sub]
  ring_nf

theorem abs_sineWave_le (u : ℝ) : |sineWave u| ≤ 32767 := by
  rw [sineWave, abs_mul, abs_of_pos (by norm_num : (0 : ℝ) < 32767)]
  linarith [Real.abs_sin_le_one (2 * Real.pi * u / 1024)]

/-- The steepest slope of the sine, 201.06 a table step. -/
theorem abs_sineWave_sub_le (u v : ℝ) : |sineWave u - sineWave v| ≤ 202 * |u - v| := by
  have hpi : 32767 * (2 * Real.pi / 1024) ≤ 202 := by linarith [Real.pi_lt_d4]
  calc |sineWave u - sineWave v|
      = 32767 * |Real.sin (2 * Real.pi * u / 1024) - Real.sin (2 * Real.pi * v / 1024)| := by
        rw [sineWave, sineWave, ← mul_sub, abs_mul, abs_of_pos (by norm_num : (0 : ℝ) < 32767)]
    _ ≤ 32767 * |2 * Real.pi / 1024 * (u - v)| := by
        have := Real.abs_sin_sub_sin_le (2 * Real.pi * u / 1024) (2 * Real.pi * v / 1024)
        rw [show 2 * Real.pi * u / 1024 - 2 * Real.pi * v / 1024 = 2 * Real.pi / 1024 * (u - v) by ring] at this
        linarith
    _ = 32767 * (2 * Real.pi / 1024) * |u - v| := by
        rw [abs_mul, abs_of_pos (by positivity : 0 < 2 * Real.pi / 1024), mul_assoc]
    _ ≤ 202 * |u - v| := mul_le_mul_of_nonneg_right hpi (abs_nonneg _)

/-- Linear interpolation between adjacent table points costs 0.155 at most. -/
theorem abs_chord_sub_sineWave_le (u l : ℝ) (h0 : 0 ≤ l) (h1 : l ≤ 1) :
    |((1 - l) * sineWave u + l * sineWave (u + 1)) - sineWave (u + l)| ≤ 0.155 := by
  have hchord := abs_chord_sub_sin_le (2 * Real.pi * u / 1024) (2 * Real.pi / 1024) l h0 h1
  rw [show 2 * Real.pi * u / 1024 + 2 * Real.pi / 1024 = 2 * Real.pi * (u + 1) / 1024 by ring,
    show 2 * Real.pi * u / 1024 + l * (2 * Real.pi / 1024) = 2 * Real.pi * (u + l) / 1024 by ring] at hchord
  have hpi : 32767 * ((2 * Real.pi / 1024) ^ 2 / 8) ≤ 0.155 := by
    nlinarith [Real.pi_lt_d4, Real.pi_pos]
  have hscale : ((1 - l) * sineWave u + l * sineWave (u + 1)) - sineWave (u + l) =
      32767 * (((1 - l) * Real.sin (2 * Real.pi * u / 1024) + l * Real.sin (2 * Real.pi * (u + 1) / 1024)) -
        Real.sin (2 * Real.pi * (u + l) / 1024)) := by
    simp only [sineWave]
    ring
  rw [hscale, abs_mul, abs_of_pos (by norm_num : (0 : ℝ) < 32767)]
  linarith

/-- The triangle's three straight pieces over one turn. -/
theorem triangleWave_cases {u : ℝ} (h0 : 0 ≤ u) (h1 : u ≤ 65536) :
    (u ≤ 16384 → triangleWave u = 2 * u) ∧
    (16384 ≤ u → u ≤ 49152 → triangleWave u = 65536 - 2 * u) ∧
    (49152 ≤ u → triangleWave u = 2 * u - 131072) := by
  have hpi := Real.pi_pos
  have piece {x : ℝ} (hlo : -16384 ≤ x) (hhi : x ≤ 16384)
      (hsin : Real.sin (2 * Real.pi * u / 65536) = Real.sin (2 * Real.pi * x / 65536)) :
      triangleWave u = 2 * x := by
    rw [triangleWave, hsin, Real.arcsin_sin (by nlinarith) (by nlinarith)]
    field_simp
    ring
  refine ⟨fun h => piece (by linarith) h rfl, fun hlo hhi => ?_, fun h => ?_⟩
  · rw [piece (x := 32768 - u) (by linarith) (by linarith)
      (by rw [← Real.sin_pi_sub]; congr 1; ring)]
    ring
  · rw [piece (x := u - 65536) (by linarith) (by linarith)
      (by rw [← Real.sin_sub_two_pi]; congr 1; ring)]
    ring

/-- The saw's two straight pieces over one turn. -/
theorem sawWave_cases {u : ℝ} (h0 : 0 ≤ u) (h1 : u < 65536) :
    (u < 32768 → sawWave u = u) ∧ (32768 ≤ u → sawWave u = u - 65536) := by
  constructor
  · intro h
    rw [sawWave, Int.fract_eq_self.mpr ⟨by linarith, by linarith⟩]
    ring
  · intro h
    rw [sawWave, show u / 65536 + 1 / 2 = (u / 65536 - 1 / 2) + 1 by ring, Int.fract_add_one,
      Int.fract_eq_self.mpr ⟨by linarith, by linarith⟩]
    ring

end Sys2Proof.Proofs

/-! ## The sine table and its interpolation against the real sine (R103 to R105) -/

namespace Sys2Proof.Proofs
open Sys2Proof.Machine

/-- The common denominator of the Taylor polynomial at a fraction over `d`: `15! · d¹⁵`. -/
def sinTaylorScale (d : ℤ) : ℤ := 1307674368000 * d ^ 15

/-- `sinTaylorScale d` times the Taylor polynomial at `n / d`, in integers. -/
def sinTaylorForm (n d : ℤ) : ℤ :=
  1307674368000 * n * d ^ 14 - 217945728000 * n ^ 3 * d ^ 12 + 10897286400 * n ^ 5 * d ^ 10 -
    259459200 * n ^ 7 * d ^ 8 + 3603600 * n ^ 9 * d ^ 6 - 32760 * n ^ 11 * d ^ 4 + 210 * n ^ 13 * d ^ 2 - n ^ 15

theorem sinTaylorForm_cast (n : ℤ) {d : ℤ} (hd : d ≠ 0) :
    (sinTaylorForm n d : ℝ) = sinTaylorScale d * sinTaylor (n / d) := by
  have : (d : ℝ) ≠ 0 := Int.cast_ne_zero.mpr hd
  rw [sinTaylorForm, sinTaylorScale, sinTaylor]
  push_cast
  field_simp
  ring

/-- Entry `k` is within 0.49877 of 32767 times the Taylor polynomial at `π·k/512`, with 312689/99532 for π:
the inequality multiplied out to integers (50960384 = 512 · 99532). -/
def QuarterEntryIsTaylor (k : ℕ) : Prop :=
  |100000 * (quarterSine k * sinTaylorScale 50960384 - 32767 * sinTaylorForm (312689 * k) 50960384)| ≤
    49877 * sinTaylorScale 50960384

/-- Checked entry by entry, along the rows and columns of the table of R103. -/
theorem quarterEntryIsTaylor_row_column :
    ∀ r < 17, ∀ c < 16, 16 * r + c ≤ 256 → QuarterEntryIsTaylor (16 * r + c) := by
  unfold QuarterEntryIsTaylor
  decide

theorem quarterEntryIsTaylor {k : ℕ} (hk : k ≤ 256) : QuarterEntryIsTaylor k := by
  have := quarterEntryIsTaylor_row_column (k / 16) (by omega) (k % 16) (by omega) (by omega)
  rwa [Nat.div_add_mod] at this

theorem abs_quarterSine_sub_sinTaylor_le {k : ℕ} (hk : k ≤ 256) :
    |(quarterSine k : ℝ) - 32767 * sinTaylor (312689 * k / 50960384)| ≤ 0.49877 := by
  have hint := quarterEntryIsTaylor hk
  have hform := sinTaylorForm_cast (312689 * k) (d := 50960384) (by norm_num)
  have hscale : (0 : ℝ) < sinTaylorScale 50960384 := by norm_num [sinTaylorScale]
  rw [QuarterEntryIsTaylor, ← Int.cast_le (R := ℝ)] at hint
  push_cast at hint hform
  rw [hform, show ∀ q D T : ℝ, 100000 * (q * D - 32767 * (D * T)) = 100000 * D * (q - 32767 * T) by intros; ring,
    abs_mul, abs_of_pos (by positivity)] at hint
  refine le_of_mul_le_mul_left (hint.trans_eq ?_) (by positivity : (0 : ℝ) < 100000 * sinTaylorScale 50960384)
  ring

/-- The distance of every table entry from the real sine leaves R103's 0.0012 to a tie. -/
theorem abs_quarterSine_sub_sineWave_le {k : ℕ} (hk : k ≤ 256) :
    |(quarterSine k : ℝ) - sineWave k| ≤ 1 / 2 - 0.0012 := by
  set x : ℝ := 312689 * k / 50960384 with hx
  have hk' : (k : ℝ) ≤ 256 := by exact_mod_cast hk
  have hx0 : 0 ≤ x := by positivity
  have hx1 : x ≤ 1.5708 := by rw [hx]; linarith
  have hpoly := abs_quarterSine_sub_sinTaylor_le hk
  have htaylor : |Real.sin x - sinTaylor x| ≤ 1.4e-10 := by
    have habs : |x| ≤ 1.5708 := by rwa [abs_of_nonneg hx0]
    calc |Real.sin x - sinTaylor x| ≤ |x| ^ 16 / 10461394944000 :=
          abs_sin_sub_sinTaylor_le (habs.trans (by norm_num))
      _ ≤ 1.5708 ^ 16 / 10461394944000 := by gcongr
      _ ≤ 1.4e-10 := by norm_num
  have hpi : |Real.sin (2 * Real.pi * k / 1024) - Real.sin x| ≤ 2e-11 := by
    refine (Real.abs_sin_sub_sin_le _ _).trans ?_
    rw [show 2 * Real.pi * k / 1024 - x = k / 512 * (Real.pi - 312689 / 99532) by rw [hx]; ring, abs_le]
    constructor <;> nlinarith [Real.pi_gt_d20, Real.pi_lt_d20, (Nat.cast_nonneg k : (0 : ℝ) ≤ k)]
  rw [abs_le] at *
  rw [sineWave]
  constructor <;> linarith

/-- R104's symmetry with the quadrant's index written out. -/
theorem slut_cases (i : BitVec 10) :
    (i.toNat ≤ 256 ∧ slut i = quarterSine i.toNat) ∨
    (256 ≤ i.toNat ∧ i.toNat ≤ 512 ∧ slut i = quarterSine (512 - i.toNat)) ∨
    (512 ≤ i.toNat ∧ i.toNat ≤ 768 ∧ slut i = -quarterSine (i.toNat - 512)) ∨
    (768 ≤ i.toNat ∧ slut i = -quarterSine (1024 - i.toNat)) := by
  have hq : (i.extractLsb' 8 2).toNat = i.toNat / 256 := by
    simp [BitVec.extractLsb'_toNat, Nat.shiftRight_eq_div_pow]; omega
  have hj : (i.extractLsb' 0 8).toNat = i.toNat % 256 := by simp
  have hi := i.isLt
  unfold slut
  rw [hq, hj]
  rcases (by omega : i.toNat / 256 = 0 ∨ i.toNat / 256 = 1 ∨ i.toNat / 256 = 2 ∨ i.toNat / 256 = 3)
    with h | h | h | h <;> simp only [h]
  · exact .inl ⟨by omega, congrArg quarterSine (by omega)⟩
  · exact .inr (.inl ⟨by omega, by omega, congrArg quarterSine (by omega)⟩)
  · exact .inr (.inr (.inl ⟨by omega, by omega, congrArg (-quarterSine ·) (by omega)⟩))
  · exact .inr (.inr (.inr ⟨by omega, congrArg (-quarterSine ·) (by omega)⟩))

/-- The full-cycle table tracks the real sine as closely as the quarter does. -/
theorem abs_slut_sub_sineWave_le (i : BitVec 10) : |(slut i : ℝ) - sineWave i.toNat| ≤ 1 / 2 - 0.0012 := by
  have hi := i.isLt
  rcases slut_cases i with ⟨h, e⟩ | ⟨h, h', e⟩ | ⟨h, h', e⟩ | ⟨h, e⟩ <;> rw [e]
  · exact abs_quarterSine_sub_sineWave_le h
  · have := abs_quarterSine_sub_sineWave_le (k := 512 - i.toNat) (by omega)
    rwa [Nat.cast_sub h', Nat.cast_ofNat, sineWave_half_turn_sub] at this
  · have := abs_quarterSine_sub_sineWave_le (k := i.toNat - 512) (by omega)
    rw [Nat.cast_sub h, Nat.cast_ofNat, sineWave_sub_half_turn] at this
    rwa [Int.cast_neg, ← abs_neg, neg_sub', neg_neg]
  · have := abs_quarterSine_sub_sineWave_le (k := 1024 - i.toNat) (by omega)
    rw [Nat.cast_sub (by omega), Nat.cast_ofNat, sineWave_turn_sub] at this
    rwa [Int.cast_neg, ← abs_neg, neg_sub', neg_neg]

/-- The entry after `i`, the one after 1023 being entry 0 a turn on. -/
theorem abs_slut_succ_sub_sineWave_le (i : BitVec 10) :
    |(slut (i + 1) : ℝ) - sineWave (i.toNat + 1)| ≤ 1 / 2 - 0.0012 := by
  have hsucc : (i + 1).toNat = (i.toNat + 1) % 1024 := by simp [BitVec.toNat_add]
  have hwave : sineWave (i + 1).toNat = sineWave (i.toNat + 1) := by
    rcases (by have := i.isLt; omega : i.toNat + 1 < 1024 ∨ i.toNat + 1 = 1024) with h | h
    · rw [hsucc, Nat.mod_eq_of_lt h, Nat.cast_succ]
    · have hturn : (i.toNat : ℝ) + 1 = 0 + 1024 := by exact_mod_cast h
      rw [hsucc, h, Nat.mod_self, hturn, sineWave_add_turn, Nat.cast_zero]
  rw [← hwave]
  exact abs_slut_sub_sineWave_le _

theorem slut_bounds (i : BitVec 10) : -32767 ≤ slut i ∧ slut i ≤ 32767 := by
  have hnear := abs_le.mp (abs_slut_sub_sineWave_le i)
  have hwave := abs_le.mp (abs_sineWave_le i.toNat)
  have hlo : (-32768 : ℝ) < slut i := by linarith [hnear.1, hwave.1]
  have hhi : (slut i : ℝ) < 32768 := by linarith [hnear.2, hwave.2]
  constructor
  · exact Int.add_one_le_iff.mpr (by exact_mod_cast hlo)
  · exact Int.lt_add_one_iff.mp (by exact_mod_cast hhi)

/-- The interpolated value is within half a unit of the chord. -/
theorem abs_interpolate_sub_chord_le (s0 s1 : ℤ) (f : ℕ) :
    |(interpolate s0 s1 f : ℝ) - ((1 - (f : ℝ) / 4096) * s0 + (f : ℝ) / 4096 * s1)| ≤ 1 / 2 := by
  obtain ⟨hlo, hhi⟩ := interpolate_bounds s0 s1 f
  rw [← Int.cast_le (R := ℝ)] at hlo
  rw [← Int.cast_lt (R := ℝ)] at hhi
  push_cast at hlo hhi
  rw [abs_le]
  constructor <;> linarith

/-- Interpolation stays in a symmetric range that holds both ends. -/
theorem interpolate_mem_range {s0 s1 m : ℤ} {f : ℕ} (h0 : -m ≤ s0 ∧ s0 ≤ m) (h1 : -m ≤ s1 ∧ s1 ≤ m)
    (hf : f ≤ 4096) : -m ≤ interpolate s0 s1 f ∧ interpolate s0 s1 f ≤ m := by
  obtain ⟨hlo, hhi⟩ := interpolate_bounds s0 s1 f
  have hf' : (f : ℤ) ≤ 4096 := by exact_mod_cast hf
  have hup : s0 * (4096 - f) + s1 * f ≤ 4096 * m := by nlinarith
  have hdown : -(4096 * m) ≤ s0 * (4096 - f) + s1 * f := by nlinarith
  constructor <;> nlinarith

theorem sine_bounds (acc : Word) : -32767 ≤ sine acc ∧ sine acc ≤ 32767 :=
  interpolate_mem_range (slut_bounds _) (slut_bounds _) (tableFraction acc).isLt.le

/-- The phase as its three fields: table index, interpolation fraction and the ten bits R105 discards. -/
theorem acc_eq_fields (acc : Word) : ∃ low < 2 ^ 10,
    acc.toNat = (tableIndex acc).toNat * 2 ^ 22 + (tableFraction acc).toNat * 2 ^ 10 + low := by
  refine ⟨acc.toNat % 2 ^ 10, Nat.mod_lt _ (by norm_num), ?_⟩
  have := acc.isLt
  simp only [tableIndex, tableFraction, BitVec.extractLsb'_toNat, Nat.shiftRight_eq_div_pow]
  omega

/-- The fixed-point sine tracks the real sine at every phase (R111): half a unit of table, half a unit of
rounding, the chord, and the discarded bits. -/
theorem abs_sine_sub_sineWave_le (acc : Word) :
    |(sine acc : ℝ) - sineWave ((acc.toNat : ℝ) / 2 ^ 22)| ≤ 5 / 4 := by
  set i := tableIndex acc
  set f := (tableFraction acc).toNat
  set l : ℝ := (f : ℝ) / 4096 with hl
  have hl0 : 0 ≤ l := by positivity
  have hl1 : l ≤ 1 := by
    have : (f : ℝ) ≤ 4096 := by exact_mod_cast (tableFraction acc).isLt.le
    rw [hl]; linarith
  have hround : |(sine acc : ℝ) - ((1 - l) * slut i + l * slut (i + 1))| ≤ 1 / 2 :=
    abs_interpolate_sub_chord_le _ _ _
  have htable := abs_mean_sub_mean_le hl0 hl1 (abs_slut_sub_sineWave_le i) (abs_slut_succ_sub_sineWave_le i)
  have hchord := abs_chord_sub_sineWave_le i.toNat l hl0 hl1
  have hdropped : |sineWave (i.toNat + l) - sineWave ((acc.toNat : ℝ) / 2 ^ 22)| ≤ 202 / 4096 := by
    obtain ⟨low, hlow, hacc⟩ := acc_eq_fields acc
    have hlow' : (low : ℝ) ≤ 2 ^ 10 := by exact_mod_cast hlow.le
    have hphase : (acc.toNat : ℝ) / 2 ^ 22 = i.toNat + l + low / 2 ^ 22 := by
      rw [hacc, hl]
      push_cast
      ring
    refine (abs_sineWave_sub_le _ _).trans ?_
    rw [hphase, sub_add_cancel_left, abs_neg, abs_of_nonneg (by positivity)]
    linarith
  rw [abs_le] at *
  constructor <;> linarith

end Sys2Proof.Proofs

/-! ## The second waveform against the real triangle and saw (R106, R107)

Both are exact at the phase truncated to acc[31:16]. -/

namespace Sys2Proof.Proofs
open Sys2Proof.Machine

@[simp] theorem shapePhase_toNat (acc : Word) : (shapePhase acc).toNat = acc.toNat / 2 ^ 16 := by
  have := acc.isLt
  simp only [shapePhase, BitVec.extractLsb'_toNat, Nat.shiftRight_eq_div_pow]
  omega

/-- The phase in steps of acc[31:16] lies less than one step above its truncation, both within one turn. -/
theorem shapePhase_floor (acc : Word) :
    (0 : ℝ) ≤ (shapePhase acc).toNat ∧ ((shapePhase acc).toNat : ℝ) + 1 ≤ 65536 ∧
    ((shapePhase acc).toNat : ℝ) ≤ acc.toNat / 2 ^ 16 ∧
    (acc.toNat : ℝ) / 2 ^ 16 < (shapePhase acc).toNat + 1 := by
  have hlt : (shapePhase acc).toNat + 1 ≤ 65536 := (shapePhase acc).isLt
  have hfloor : (shapePhase acc).toNat = ⌊(acc.toNat : ℝ) / 2 ^ 16⌋₊ := by
    rw [shapePhase_toNat, ← Nat.floor_div_eq_div (K := ℝ)]
    norm_num
  refine ⟨Nat.cast_nonneg _, by exact_mod_cast hlt, ?_⟩
  rw [hfloor]
  exact ⟨Nat.floor_le (by positivity), Nat.lt_floor_add_one _⟩

/-- R106 by cases of v = acc[31:16]. -/
theorem triangleOf_cases (v : ℕ) :
    (v < 16384 ∧ triangleOf v = 2 * v) ∨
    (v = 16384 ∧ triangleOf v = 32767) ∨
    (16384 < v ∧ v < 49152 ∧ triangleOf v = 65536 - 2 * v) ∨
    (49152 ≤ v ∧ triangleOf v = 2 * v - 131072) := by
  unfold triangleOf
  split_ifs with h1 h2 <;> omega

/-- R107 by cases of v = acc[31:16]. -/
theorem saw_cases (acc : Word) :
    ((shapePhase acc).toNat < 32768 ∧ saw acc = (shapePhase acc).toNat) ∨
    (32768 ≤ (shapePhase acc).toNat ∧ saw acc = (shapePhase acc).toNat - 65536) := by
  unfold saw
  rw [BitVec.toInt_eq_toNat_cond]
  split_ifs <;> omega

theorem triangle_bounds (acc : Word) : -32768 ≤ triangle acc ∧ triangle acc ≤ 32767 := by
  have := (shapePhase acc).isLt
  unfold triangle
  rcases triangleOf_cases (shapePhase acc).toNat with h | h | h | h <;> omega

theorem saw_bounds (acc : Word) : -32768 ≤ saw acc ∧ saw acc ≤ 32767 := by
  have := (shapePhase acc).isLt
  rcases saw_cases acc with h | h <;> omega

/-- Truncating the phase moves the triangle by less than its slope of 2 a step; its saturated peak is 1 low. -/
theorem abs_triangle_sub_triangleWave_le (acc : Word) :
    |(triangle acc : ℝ) - triangleWave ((acc.toNat : ℝ) / 2 ^ 16)| ≤ 2 := by
  obtain ⟨hv0, hv1, hlo, hhi⟩ := shapePhase_floor acc
  set u : ℝ := (acc.toNat : ℝ) / 2 ^ 16
  set v := (shapePhase acc).toNat
  obtain ⟨hrise, hfall, hback⟩ := triangleWave_cases (u := u) (by linarith) (by linarith)
  rw [triangle, abs_le]
  rcases triangleOf_cases v with ⟨h, e⟩ | ⟨h, e⟩ | ⟨h, h', e⟩ | ⟨h, e⟩ <;> rw [e] <;> push_cast
  · have hle : (v : ℝ) + 1 ≤ 16384 := by exact_mod_cast h
    rw [hrise (by linarith)]
    constructor <;> linarith
  · have heq : (v : ℝ) = 16384 := by exact_mod_cast h
    rw [hfall (by linarith) (by linarith)]
    constructor <;> linarith
  · have hge : (16384 : ℝ) ≤ v := by exact_mod_cast h.le
    have hle : (v : ℝ) + 1 ≤ 49152 := by exact_mod_cast h'
    rw [hfall (by linarith) (by linarith)]
    constructor <;> linarith
  · have hge : (49152 : ℝ) ≤ v := by exact_mod_cast h
    rw [hback (by linarith)]
    constructor <;> linarith

/-- Truncating the phase moves the saw by less than its slope of 1 a step. -/
theorem abs_saw_sub_sawWave_le (acc : Word) :
    |(saw acc : ℝ) - sawWave ((acc.toNat : ℝ) / 2 ^ 16)| ≤ 1 := by
  obtain ⟨hv0, hv1, hlo, hhi⟩ := shapePhase_floor acc
  have hsaw := saw_cases acc
  set u : ℝ := (acc.toNat : ℝ) / 2 ^ 16
  set v := (shapePhase acc).toNat
  obtain ⟨hlow, hhigh⟩ := sawWave_cases (u := u) (by linarith) (by linarith)
  rw [abs_le]
  rcases hsaw with ⟨h, e⟩ | ⟨h, e⟩ <;> rw [e] <;> push_cast
  · have hle : (v : ℝ) + 1 ≤ 32768 := by exact_mod_cast h
    rw [hlow (by linarith)]
    constructor <;> linarith
  · have hge : (32768 : ℝ) ≤ v := by exact_mod_cast h
    rw [hhigh (by linarith)]
    constructor <;> linarith

/-- The wave SHAPE selects (R108), as a real function. -/
noncomputable def secondWaveReal (shape : BitVec 1) (u : ℝ) : ℝ := if shape = 0 then triangleWave u else sawWave u

theorem abs_secondWave_sub_real_le (shape : BitVec 1) (acc : Word) :
    |(secondWave shape acc : ℝ) - secondWaveReal shape ((acc.toNat : ℝ) / 2 ^ 16)| ≤ 2 := by
  unfold secondWave secondWaveReal
  split_ifs
  · exact abs_triangle_sub_triangleWave_le acc
  · exact (abs_saw_sub_sawWave_le acc).trans (by norm_num)

theorem secondWave_bounds (shape : BitVec 1) (acc : Word) :
    -32768 ≤ secondWave shape acc ∧ secondWave shape acc ≤ 32767 := by
  unfold secondWave
  split_ifs
  · exact triangle_bounds acc
  · exact saw_bounds acc

end Sys2Proof.Proofs

/-! ## The blend and STEP's sample (R100, R101, R109, R110) -/

namespace Sys2Proof.Proofs
open Sys2Proof.Machine

/-- MIX is within half a unit of the exact blend. -/
theorem abs_mix_sub_blend_le (s a : ℤ) (B : ℕ) :
    |(mix s a B : ℝ) - ((1 - (B : ℝ) / 65536) * s + (B : ℝ) / 65536 * a)| ≤ 1 / 2 := by
  obtain ⟨hlo, hhi⟩ := mix_bounds s a B
  rw [← Int.cast_le (R := ℝ)] at hlo
  rw [← Int.cast_lt (R := ℝ)] at hhi
  push_cast at hlo hhi
  rw [abs_le]
  constructor <;> linarith

/-- MIX stays in an interval that holds both operands. -/
theorem mix_mem_range {s a lo hi : ℤ} {B : ℕ} (hs : lo ≤ s ∧ s ≤ hi) (ha : lo ≤ a ∧ a ≤ hi)
    (hB : B ≤ 65536) : lo ≤ mix s a B ∧ mix s a B ≤ hi := by
  obtain ⟨hfloor, hceil⟩ := mix_bounds s a B
  have hB' : (B : ℤ) ≤ 65536 := by exact_mod_cast hB
  have hup : s * (65536 - B) + a * B ≤ 65536 * hi := by nlinarith
  have hdown : 65536 * lo ≤ s * (65536 - B) + a * B := by nlinarith
  constructor <;> linarith

theorem blendedSample_bounds (acc : Word) {blend : BlendCode} (shape : BitVec 1) (h : blend.toNat ≤ 65536) :
    -32768 ≤ blendedSample acc blend shape ∧ blendedSample acc blend shape ≤ 32767 := by
  obtain ⟨hlo, hhi⟩ := sine_bounds acc
  exact mix_mem_range ⟨by omega, hhi⟩ (secondWave_bounds shape acc) h

/-- The sample STEP stores is the exact blended integer, not wrapped. -/
theorem nextSample_toInt {s : State} (h : s.blend.toNat ≤ 65536) :
    (nextSample s).toInt = blendedSample (s.acc + s.inc) s.blend s.shape := by
  obtain ⟨hlo, hhi⟩ := blendedSample_bounds (s.acc + s.inc) s.shape h
  rw [nextSample_legal s h]
  exact BitVec.toInt_ofInt_eq_self (by norm_num) (by omega) (by omega)

/-- Rounding, sine and second wave together: at every legal code a sample is within 2.5 of the real blend. -/
theorem abs_blendedSample_sub_realBlend_le (acc : Word) {blend : BlendCode} (shape : BitVec 1)
    (h : blend.toNat ≤ 65536) :
    |(blendedSample acc blend shape : ℝ) -
      ((1 - (blend.toNat : ℝ) / 65536) * sineWave ((acc.toNat : ℝ) / 2 ^ 22) +
        (blend.toNat : ℝ) / 65536 * secondWaveReal shape ((acc.toNat : ℝ) / 2 ^ 16))| ≤ 5 / 2 := by
  have hround := abs_mix_sub_blend_le (sine acc) (secondWave shape acc) blend.toNat
  rw [← blendedSample] at hround
  have h' : (blend.toNat : ℝ) ≤ 65536 := by exact_mod_cast h
  set b : ℝ := (blend.toNat : ℝ) / 65536 with hb
  have hb0 : 0 ≤ b := by positivity
  have hb1 : b ≤ 1 := by rw [hb]; linarith
  have hwaves := abs_mean_sub_mean_le hb0 hb1 (abs_sine_sub_sineWave_le acc) (abs_secondWave_sub_real_le shape acc)
  rw [abs_le] at *
  constructor <;> linarith

/-- Addition modulo 2^32 is addition of angles up to whole turns (R101). -/
theorem phase_add_eq_sub_turns (a i : Word) : ∃ k : ℤ,
    2 * Real.pi * ((a + i).toNat : ℝ) / 2 ^ 32 =
      2 * Real.pi * (a.toNat : ℝ) / 2 ^ 32 + 2 * Real.pi * (i.toNat : ℝ) / 2 ^ 32 - 2 * Real.pi * k := by
  obtain ⟨k, hk⟩ : ∃ k : ℕ, (a + i).toNat + 2 ^ 32 * k = a.toNat + i.toNat :=
    ⟨_, by rw [BitVec.toNat_add]; exact Nat.mod_add_div _ _⟩
  have hsum : ((a + i).toNat : ℝ) = a.toNat + i.toNat - 2 ^ 32 * k := eq_sub_of_add_eq (by exact_mod_cast hk)
  refine ⟨k, ?_⟩
  rw [hsum, Int.cast_natCast]
  ring

/-- The sine wave in terms of the angle of R2. -/
theorem sineWave_of_phase (n : ℕ) : sineWave ((n : ℝ) / 2 ^ 22) = 32767 * Real.sin (2 * Real.pi * n / 2 ^ 32) := by
  rw [sineWave]
  ring_nf

/-- The second wave in terms of the angle of R2. -/
theorem secondWaveReal_of_phase (shape : BitVec 1) (n : ℕ) :
    secondWaveReal shape ((n : ℝ) / 2 ^ 16) = 32768 *
      (if shape = 0 then 2 / Real.pi * Real.arcsin (Real.sin (2 * Real.pi * n / 2 ^ 32))
       else 2 * Int.fract (2 * Real.pi * n / 2 ^ 32 / (2 * Real.pi) + 1 / 2) - 1) := by
  have hangle : 2 * Real.pi * ((n : ℝ) / 2 ^ 16) / 65536 = 2 * Real.pi * n / 2 ^ 32 := by ring
  have hturns : (n : ℝ) / 2 ^ 16 / 65536 = 2 * Real.pi * n / 2 ^ 32 / (2 * Real.pi) := by
    field_simp
    norm_num
  rw [secondWaveReal, triangleWave, sawWave, hangle, hturns, mul_ite]

/-- Settles O31: STEP's phase is the sum up to whole turns, and its sample the blend the lemmas above bound. -/
theorem stepRealisesTheReferenceOscillator : Obligations.StepRealisesTheReferenceOscillator := by
  intro s hblend
  refine ⟨stepCommand s, rfl, phase_add_eq_sub_turns s.acc s.inc, ?_⟩
  rintro φ b alt rfl rfl rfl
  rw [stepCommand_out, stepCommand_acc, nextSample_toInt hblend, ← sineWave_of_phase, ← secondWaveReal_of_phase]
  exact abs_blendedSample_sub_realBlend_le (s.acc + s.inc) s.shape hblend

end Sys2Proof.Proofs

/-! ## What the edge of one cycle does, as data (R70, R72, R211)

A sampled cycle performs one of five operations, and its inputs alone select which. The obligations about single
cycles split along these five, and their frames and events are said here once. -/

namespace Sys2Proof.Proofs
open Sys2Proof.Machine

/-- The operations an edge can perform: the four of R72, and reset. -/
inductive EdgeOperation where
  | reset
  | nop
  | read (a : RegAddr)
  | write (a : RegAddr) (w : Word)
  | step

/-- What each does to the registers: the model's own functions. -/
def EdgeOperation.apply : EdgeOperation → State → State
  | .reset, s => resetEdge s
  | .nop, s => nopCommand s
  | .read a, s => readCommand a s
  | .write a w, s => writeCommand a w s
  | .step, s => stepCommand s

@[simp] theorem EdgeOperation.apply_reset (s : State) : EdgeOperation.reset.apply s = resetEdge s := rfl
@[simp] theorem EdgeOperation.apply_nop (s : State) : EdgeOperation.nop.apply s = nopCommand s := rfl
@[simp] theorem EdgeOperation.apply_read (a : RegAddr) (s : State) :
    (EdgeOperation.read a).apply s = readCommand a s := rfl
@[simp] theorem EdgeOperation.apply_write (a : RegAddr) (w : Word) (s : State) :
    (EdgeOperation.write a w).apply s = writeCommand a w s := rfl
@[simp] theorem EdgeOperation.apply_step (s : State) : EdgeOperation.step.apply s = stepCommand s := rfl

/-- The operation the inputs of a cycle select: reset wins, and no valid command is a NOP. -/
def operationOf (p : PortInputs) : EdgeOperation :=
  if p.rst then .reset
  else if p.cmdValid then
    match p.cmdOp with
    | 0 => .nop
    | 1 => .read p.cmdAddr
    | 2 => .write p.cmdAddr p.cmdWdata
    | 3 => .step
  else .nop

/-- `operationOf` is what the model's edge performs. -/
theorem edgeOfInputs_eq_apply (p : PortInputs) (s : State) :
    edgeOfInputs p s = .next ((operationOf p).apply s) := by
  rcases edgeOfInputs_forms p s with ⟨hr, h⟩ | ⟨hr, hv | hop, h⟩ | ⟨hr, hv, hop, h⟩ | ⟨hr, hv, hop, h⟩ |
    ⟨hr, hv, hop, h⟩
  all_goals simp [operationOf, *]

/-- A cycle answers exactly when it is sampled, and then with the operation its inputs select. -/
theorem step_eq_next_iff {s t : State} :
    step s = .next t ↔
      ∃ p, currentCycle s = .sampled p ∧ t = (operationOf p).apply (consumeCycle s) := by
  unfold step
  cases currentCycle s with
  | sampled p => simp [clockEdge, edgeOfInputs_eq_apply, eq_comm]
  | disturbed d => simp [clockEdge]

/-! ### Which inputs select which operation -/

theorem operationOf_eq_reset_iff (p : PortInputs) : operationOf p = .reset ↔ p.rst = true := by
  grind [operationOf]

theorem operationOf_eq_read_iff (p : PortInputs) (a : RegAddr) :
    operationOf p = .read a ↔ p.rst = false ∧ p.cmdValid = true ∧ p.cmdOp = 1 ∧ p.cmdAddr = a := by
  grind [operationOf]

theorem operationOf_eq_write_iff (p : PortInputs) (a : RegAddr) (w : Word) :
    operationOf p = .write a w ↔
      p.rst = false ∧ p.cmdValid = true ∧ p.cmdOp = 2 ∧ p.cmdAddr = a ∧ p.cmdWdata = w := by
  grind [operationOf]

theorem operationOf_eq_step_iff (p : PortInputs) :
    operationOf p = .step ↔ p.rst = false ∧ p.cmdValid = true ∧ p.cmdOp = 3 := by
  grind [operationOf]

/-! ### Which operation changes which register (R21 to R27) -/

/-- A register write reaches the one register at its address (R158 to R161). -/
theorem regWrite_frame (a : RegAddr) (w : Word) (s : State) :
    (a ≠ 3 → (regWrite a w s).acc = s.acc) ∧ (a ≠ 1 → (regWrite a w s).inc = s.inc) ∧
    (a ≠ 2 → (regWrite a w s).blend = s.blend) ∧ (a ≠ 0 → (regWrite a w s).shape = s.shape) := by
  rcases regWrite_cases a w s with ⟨rfl, h⟩ | ⟨rfl, h⟩ | ⟨rfl, h⟩ | ⟨rfl, h⟩ | ⟨-, h⟩ <;> simp [h]

section
variable {o : EdgeOperation} {s : State}

theorem operation_of_acc_ne (h : (o.apply s).acc ≠ s.acc) : o = .reset ∨ o = .step ∨ ∃ w, o = .write 3 w := by
  cases o with
  | write a w =>
    obtain ⟨hframe, -, -, -⟩ := regWrite_frame a w s
    simpa using fun ha => h (hframe ha)
  | _ => simp_all

theorem operation_of_inc_ne (h : (o.apply s).inc ≠ s.inc) : o = .reset ∨ ∃ w, o = .write 1 w := by
  cases o with
  | write a w =>
    obtain ⟨-, hframe, -, -⟩ := regWrite_frame a w s
    simpa using fun ha => h (hframe ha)
  | _ => simp_all

theorem operation_of_blend_ne (h : (o.apply s).blend ≠ s.blend) : o = .reset ∨ ∃ w, o = .write 2 w := by
  cases o with
  | write a w =>
    obtain ⟨-, -, hframe, -⟩ := regWrite_frame a w s
    simpa using fun ha => h (hframe ha)
  | _ => simp_all

theorem operation_of_shape_ne (h : (o.apply s).shape ≠ s.shape) : o = .reset ∨ ∃ w, o = .write 0 w := by
  cases o with
  | write a w =>
    obtain ⟨-, -, -, hframe⟩ := regWrite_frame a w s
    simpa using fun ha => h (hframe ha)
  | _ => simp_all

theorem operation_of_out_ne (h : (o.apply s).out ≠ s.out) : o = .reset ∨ o = .step := by
  cases o <;> simp_all

theorem operation_of_rdata_ne (h : (o.apply s).rdata ≠ s.rdata) : o = .reset ∨ ∃ a, o = .read a := by
  cases o <;> simp_all

end

/-- RDV is up exactly after a READ. -/
theorem EdgeOperation.apply_rdv_iff (o : EdgeOperation) (s : State) :
    (o.apply s).rdv = true ↔ ∃ a, o = .read a := by
  cases o <;> simp

/-- OUTV is up exactly after a STEP. -/
theorem EdgeOperation.apply_outv_iff (o : EdgeOperation) (s : State) : (o.apply s).outv = true ↔ o = .step := by
  cases o <;> simp

@[simp] theorem EdgeOperation.apply_port (o : EdgeOperation) (s : State) : (o.apply s).port = s.port := by
  cases o <;> simp

end Sys2Proof.Proofs

/-! ## The invariant (R23, R26, R27, R100, R150) -/

namespace Sys2Proof.Proofs
open Sys2Proof.Machine

/-- A READ's word is a matter of the register map, ACC, INC, BLEND, SHAPE and OUT, alone (R150). -/
theorem regRead_congr {s t : State} (acc : s.acc = t.acc) (inc : s.inc = t.inc) (blend : s.blend = t.blend)
    (shape : s.shape = t.shape) (out : s.out = t.out) (a : RegAddr) : regRead a s = regRead a t := by
  simp only [regRead, acc, inc, blend, shape, out]

/-- R23: a WRITE to BLEND clamps, and no other WRITE reaches it. -/
theorem regWrite_blendLegal {s : State} (h : s.blendLegal) (a : RegAddr) (w : Word) :
    (regWrite a w s).blendLegal := by
  unfold State.blendLegal at *
  by_cases ha : a = 2
  · have hcode := blendOperand_toNat w
    have hclamp := clamp_bounds w.toInt (show (0 : ℤ) ≤ 65536 by decide)
    subst ha
    change (blendOperand w).toNat ≤ 65536
    omega
  · obtain ⟨-, -, hframe, -⟩ := regWrite_frame a w s
    rwa [hframe ha]

/-- With no strobe up, a legal blend code is all the invariant asks. -/
theorem inv_of_strobes_down {s : State} (hblend : s.blendLegal) (hrdv : s.rdv = false) (houtv : s.outv = false) :
    s.Inv where
  blend := hblend
  strobes := by simp [State.strobesExclusive, hrdv]
  sample := by simp [State.sampleCurrent, houtv]
  read := by simp [State.readCurrent, hrdv]

/-- A READ and a STEP show what they have just stored, and every other operation shows nothing: of the state
before, only the legal blend code is needed. -/
theorem EdgeOperation.apply_inv {s : State} (h : s.blendLegal) (o : EdgeOperation) : (o.apply s).Inv := by
  cases o with
  | reset => exact inv_of_strobes_down (Nat.zero_le _) rfl rfl
  | nop => exact inv_of_strobes_down h rfl rfl
  | write a w => exact inv_of_strobes_down (regWrite_blendLegal h a w) rfl rfl
  | read a =>
    exact ⟨h, by simp [State.strobesExclusive], by simp [State.sampleCurrent],
      fun _ => ⟨a, regRead_congr rfl rfl rfl rfl rfl a⟩⟩
  | step =>
    exact ⟨h, by simp [State.strobesExclusive], fun _ => nextSample_toInt h, by simp [State.readCurrent]⟩

/-- Settles O52: the blend code stays legal, and each operation makes the rest. -/
theorem everyStepKeepsTheInvariant : Obligations.EveryStepKeepsTheInvariant := by
  intro s t hs hstep
  obtain ⟨p, -, rfl⟩ := step_eq_next_iff.mp hstep
  exact (operationOf p).apply_inv (s := consumeCycle s) hs.blend

/-- Settles O53: reset is an operation that makes the invariant, and every register is 0 by R39. -/
theorem resetStateHasTheInvariant : Obligations.ResetStateHasTheInvariant :=
  ⟨EdgeOperation.apply_inv (s := State.reset) (Nat.zero_le _) .reset, rfl, rfl, rfl, rfl, rfl, rfl, rfl, rfl⟩

end Sys2Proof.Proofs

/-! ## The events that change each register (R21 to R27) -/

namespace Sys2Proof.Proofs
open Sys2Proof.Machine

theorem decodeRead_ne_step (a : RegAddr) : decodeRead a ≠ .step := by
  unfold decodeRead
  split <;> simp

theorem decodeWrite_ne_step (a : RegAddr) (w : Word) : decodeWrite a w ≠ .step := by
  unfold decodeWrite
  split <;> simp

/-- Only the operation code 3 decodes to STEP (R72). -/
theorem decodeFields_eq_step_iff (op : OpField) (a : RegAddr) (w : Word) : decodeFields op a w = .step ↔ op = 3 := by
  have hop : op = 0 ∨ op = 1 ∨ op = 2 ∨ op = 3 := by revert op; decide
  rcases hop with rfl | rfl | rfl | rfl
  · simp [decodeFields]
  · simpa [decodeFields] using decodeRead_ne_step a
  · simpa [decodeFields] using decodeWrite_ne_step a w
  · simp [decodeFields]

section
variable {p : PortInputs}

/-- A cycle that performs a STEP has a valid STEP on its port. -/
theorem command_of_step (h : operationOf p = .step) :
    p.cmdValid = true ∧ decodeFields p.cmdOp p.cmdAddr p.cmdWdata = .step := by
  obtain ⟨-, hv, hop⟩ := (operationOf_eq_step_iff p).mp h
  exact ⟨hv, (decodeFields_eq_step_iff ..).mpr hop⟩

/-- A cycle that performs a register write has a valid WRITE of that address on its port. -/
theorem command_of_write {a : RegAddr} (h : ∃ w, operationOf p = .write a w) :
    p.cmdValid = true ∧ ∃ w, decodeFields p.cmdOp p.cmdAddr p.cmdWdata = decodeWrite a w := by
  obtain ⟨w, h⟩ := h
  obtain ⟨-, hv, hop, rfl, rfl⟩ := (operationOf_eq_write_iff p a w).mp h
  exact ⟨hv, _, by rw [hop]; rfl⟩

/-- A cycle that performs a READ has a valid READ on its port. -/
theorem command_of_read (h : ∃ a, operationOf p = .read a) : p.cmdValid = true ∧ p.cmdOp = 1 := by
  obtain ⟨a, h⟩ := h
  obtain ⟨-, hv, hop, -⟩ := (operationOf_eq_read_iff p a).mp h
  exact ⟨hv, hop⟩

end

/-- Settles O54: a register that changed names the operation, and the operation names the inputs. -/
theorem onlyTheNamedEventsChangeEachRegister : Obligations.OnlyTheNamedEventsChangeEachRegister := by
  intro s t p rest i hport hi hstep
  rw [step_sampled s p rest hport, edgeOfInputs_eq_apply] at hstep
  obtain rfl := Host.Outcome.next.inj hstep
  rw [decode_makeCommandWord] at hi
  subst hi
  have hreset := (operationOf_eq_reset_iff p).mp
  refine ⟨fun h => ?_, fun h => ?_, fun h => ?_, fun h => ?_, fun h => ?_, fun h => ?_, ?_, ?_,
    EdgeOperation.apply_port _ _⟩
  · rcases operation_of_acc_ne h with ho | ho | ho
    · exact .inl (hreset ho)
    · obtain ⟨hv, hi⟩ := command_of_step ho
      exact .inr ⟨hv, .inl hi⟩
    · obtain ⟨hv, hi⟩ := command_of_write ho
      exact .inr ⟨hv, .inr hi⟩
  · exact (operation_of_inc_ne h).imp hreset command_of_write
  · exact (operation_of_blend_ne h).imp hreset command_of_write
  · exact (operation_of_shape_ne h).imp hreset command_of_write
  · exact (operation_of_out_ne h).imp hreset command_of_step
  · exact (operation_of_rdata_ne h).imp hreset command_of_read
  · simp [EdgeOperation.apply_rdv_iff, operationOf_eq_read_iff]
  · simp [EdgeOperation.apply_outv_iff, operationOf_eq_step_iff, decodeFields_eq_step_iff]

end Sys2Proof.Proofs

/-! ## The port registers are observed only through the ports (R40) -/

namespace Sys2Proof.Proofs
open Sys2Proof.Machine

/-- Two blocks with the same register map, driven alike. RDATA, RDV and OUTV are free. -/
structure SameMap (s t : State) : Prop where
  acc : s.acc = t.acc
  inc : s.inc = t.inc
  blend : s.blend = t.blend
  shape : s.shape = t.shape
  out : s.out = t.out
  port : s.port = t.port

/-- STEP's sample is a matter of ACC, INC, BLEND and SHAPE alone. -/
theorem nextSample_congr {s t : State} (acc : s.acc = t.acc) (inc : s.inc = t.inc) (blend : s.blend = t.blend)
    (shape : s.shape = t.shape) : nextSample s = nextSample t := by
  simp only [nextSample, advancedPhase, acc, inc, blend, shape]

namespace SameMap
variable {s t : State}

theorem regRead_eq (h : SameMap s t) (a : RegAddr) : regRead a s = regRead a t :=
  regRead_congr h.acc h.inc h.blend h.shape h.out a

theorem nextSample_eq (h : SameMap s t) : nextSample s = nextSample t :=
  nextSample_congr h.acc h.inc h.blend h.shape

theorem regWrite_same (h : SameMap s t) (a : RegAddr) (w : Word) : SameMap (regWrite a w s) (regWrite a w t) := by
  obtain ⟨acc, inc, blend, shape, out, port⟩ := h
  rcases regWrite_cases a w s with ⟨rfl, -⟩ | ⟨rfl, -⟩ | ⟨rfl, -⟩ | ⟨rfl, -⟩ | ⟨ha, -⟩
  case inr.inr.inr.inr =>
    simp only [regWrite_ignored _ _ _ ha]
    exact ⟨acc, inc, blend, shape, out, port⟩
  all_goals constructor <;> simp [*]

/-- Every operation keeps the map the same in both blocks. -/
theorem apply_same (h : SameMap s t) (o : EdgeOperation) : SameMap (o.apply s) (o.apply t) := by
  have hsample := h.nextSample_eq
  cases o with
  | write a w => exact { h.regWrite_same a w with }
  | _ =>
    obtain ⟨acc, inc, blend, shape, out, port⟩ := h
    constructor <;> simp [*]

/-- Every operation shows the same sample and the same word in both blocks, since it sets the strobes itself. -/
theorem shown_same (h : SameMap s t) (o : EdgeOperation) :
    shownSample (o.apply s) = shownSample (o.apply t) ∧ shownRead (o.apply s) = shownRead (o.apply t) := by
  cases o <;> simp [shownSample, shownRead, h.regRead_eq, h.nextSample_eq]

/-- One cycle of two blocks with the same map: both answer, show the same, and keep the map the same. -/
theorem step_next (h : SameMap s t) {s' : State} (hs : step s = .next s') :
    ∃ t', step t = .next t' ∧ SameMap s' t' ∧ shownSample s' = shownSample t' ∧ shownRead s' = shownRead t' := by
  obtain ⟨p, hp, rfl⟩ := step_eq_next_iff.mp hs
  have hcycle : currentCycle t = .sampled p := by rw [← hp, currentCycle, currentCycle, h.port]
  have hrest : SameMap (consumeCycle s) (consumeCycle t) :=
    { h with port := congrArg List.tail h.port }
  exact ⟨_, step_eq_next_iff.mpr ⟨p, hcycle, rfl⟩, hrest.apply_same _, hrest.shown_same _⟩

end SameMap

/-- An observed run begins with a cycle that answers. -/
theorem observe_succ_eq_next {n : ℕ} {s : State} {o : Observation} (h : observe (n + 1) s = .next o) :
    ∃ s' o', step s = .next s' ∧ observe n s' = .next o' ∧
      o = { outs := shownSample s' ++ o'.outs, reads := shownRead s' ++ o'.reads, final := o'.final } := by
  rw [observe] at h
  split at h <;> try contradiction
  split at h <;> try contradiction
  exact ⟨_, _, ‹_›, ‹_›, (Host.Outcome.next.inj h).symm⟩

/-- Two blocks with the same map observe the same in any number of cycles. -/
theorem observe_of_sameMap (n : ℕ) {s t : State} {o : Observation} (h : SameMap s t) (ho : observe n s = .next o) :
    ∃ o', observe n t = .next o' ∧ o'.outs = o.outs ∧ o'.reads = o.reads ∧ SameMap o.final o'.final := by
  induction n generalizing s t o with
  | zero =>
    obtain rfl := Host.Outcome.next.inj ho
    exact ⟨_, rfl, rfl, rfl, h⟩
  | succ n ih =>
    obtain ⟨s', os, hs, hos, rfl⟩ := observe_succ_eq_next ho
    obtain ⟨t', ht, hmap, hsample, hread⟩ := h.step_next hs
    obtain ⟨ot, hot, houts, hreads, hfinal⟩ := ih hmap hos
    exact ⟨_, observe_succ_of_next ht hot, by simp [hsample, houts], by simp [hread, hreads], hfinal⟩

/-- Settles O55: the register map of two blocks stays the same, and what they show comes from it. -/
theorem portRegistersAreNotObservedIndirectly : Obligations.PortRegistersAreNotObservedIndirectly := by
  refine ⟨fun n s t o acc inc blend shape out port ho => ?_, fun s t acc inc blend shape => ?_⟩
  · obtain ⟨o', ho', houts, hreads, hfinal⟩ := observe_of_sameMap n ⟨acc, inc, blend, shape, out, port⟩ ho
    exact ⟨o', ho', houts, hreads, fun a => (hfinal.regRead_eq a).symm⟩
  · refine ⟨stepCommand s, stepCommand t, rfl, rfl, ?_, nextSample_congr acc inc blend shape⟩
    rw [stepCommand_acc, stepCommand_acc, acc, inc]

end Sys2Proof.Proofs

/-! ## A run over driven cycles (R59)

A run whose cycles are all sampled performs the operations its inputs select, one after another, and takes those
cycles off the front of the list. -/

namespace Sys2Proof.Proofs
open Sys2Proof.Machine

/-- The operations a list of inputs selects, performed in order. -/
def applyInputs (ps : List PortInputs) (s : State) : State :=
  ps.foldl (fun s p => (operationOf p).apply s) s

@[simp] theorem applyInputs_nil (s : State) : applyInputs [] s = s := rfl
@[simp] theorem applyInputs_cons (p : PortInputs) (ps : List PortInputs) (s : State) :
    applyInputs (p :: ps) s = applyInputs ps ((operationOf p).apply s) := rfl
@[simp] theorem applyInputs_append (ps qs : List PortInputs) (s : State) :
    applyInputs (ps ++ qs) s = applyInputs qs (applyInputs ps s) := List.foldl_append

@[simp] theorem setPort_setPort (s : State) (l l' : List PortCycle) : (s.setPort l).setPort l' = s.setPort l' := rfl

theorem setPort_self {s : State} {l : List PortCycle} (h : s.port = l) : s.setPort l = s := by
  subst h
  rfl

/-- A register write neither sees nor changes the cycles to come. -/
theorem regWrite_setPort (a : RegAddr) (w : Word) (s : State) (l : List PortCycle) :
    regWrite a w (s.setPort l) = (regWrite a w s).setPort l := by
  rcases regWrite_cases a w s with ⟨rfl, -⟩ | ⟨rfl, -⟩ | ⟨rfl, -⟩ | ⟨rfl, -⟩ | ⟨ha, -⟩
  case inr.inr.inr.inr => simp only [regWrite_ignored _ _ _ ha]
  all_goals rfl

/-- No operation sees the cycles to come. -/
theorem EdgeOperation.apply_setPort (o : EdgeOperation) (s : State) (l : List PortCycle) :
    o.apply (s.setPort l) = (o.apply s).setPort l := by
  cases o with
  | write a w => exact congrArg State.strobeNone (regWrite_setPort a w s l)
  | step =>
    have hsample : nextSample (s.setPort l) = nextSample s := nextSample_congr rfl rfl rfl rfl
    rw [apply_step, apply_step, stepCommand_eq, stepCommand_eq, hsample]
    rfl
  | _ => rfl

theorem applyInputs_setPort (ps : List PortInputs) (s : State) (l : List PortCycle) :
    applyInputs ps (s.setPort l) = (applyInputs ps s).setPort l := by
  induction ps generalizing s with
  | nil => rfl
  | cons p ps ih => rw [applyInputs_cons, EdgeOperation.apply_setPort, ih, applyInputs_cons]

/-- A sampled cycle at the front of the list performs its operation and leaves the rest of the list. -/
theorem step_of_port_cons {s : State} {p : PortInputs} {rest : List PortCycle} (h : s.port = .sampled p :: rest) :
    step s = .next (((operationOf p).apply s).setPort rest) := by
  rw [step_sampled s p rest h, edgeOfInputs_eq_apply, EdgeOperation.apply_setPort]

/-- Sampled cycles at the front of the list perform their operations and leave the rest of the list. -/
theorem runCycles_of_port_append {ps : List PortInputs} {s : State} {rest : List PortCycle}
    (h : s.port = ps.map PortCycle.sampled ++ rest) :
    runCycles ps.length s = .next ((applyInputs ps s).setPort rest) := by
  induction ps generalizing s with
  | nil => exact congrArg Host.Outcome.next (setPort_self h).symm
  | cons p ps ih =>
    have hstep := step_of_port_cons h
    rw [List.length_cons, runCycles_succ_of_next hstep, ih rfl, applyInputs_setPort]
    rfl

/-- A run that answers begins with a cycle that answers. -/
theorem runCycles_succ_eq_next {n : ℕ} {s t : State} (h : runCycles (n + 1) s = .next t) :
    ∃ s', step s = .next s' ∧ runCycles n s' = .next t := by
  rw [runCycles] at h
  split at h <;> try contradiction
  exact ⟨_, ‹_›, h⟩

/-- A run that begins with cycles that answer is those cycles and then the rest. -/
theorem runCycles_add {m n : ℕ} {s t : State} (h : runCycles m s = .next t) :
    runCycles (m + n) s = runCycles n t := by
  induction m generalizing s with
  | zero =>
    obtain rfl := Host.Outcome.next.inj h
    rw [Nat.zero_add]
  | succ m ih =>
    obtain ⟨s', hstep, hrest⟩ := runCycles_succ_eq_next h
    rw [Nat.succ_add, runCycles_succ_of_next hstep, ih hrest]

/-- Settles O15: the state the listed cycles leave is `applyInputs` of them, whatever follows them on the port. -/
theorem laterCyclesChangeNothingEarlier : Obligations.LaterCyclesChangeNothingEarlier := by
  have hrun (s : State) (ps : List PortInputs) (l : List PortCycle) :
      runCycles ps.length (s.setPort (ps.map PortCycle.sampled ++ l)) = .next ((applyInputs ps s).setPort l) := by
    rw [runCycles_of_port_append (State.setPort_port ..), applyInputs_setPort, setPort_setPort]
  exact ⟨fun m n s t h => runCycles_add h, fun s ps l l' => ⟨applyInputs ps s, hrun s ps l, hrun s ps l'⟩⟩

end Sys2Proof.Proofs

/-! ## READ and WRITE are idempotent, STEP is not (R56) -/

namespace Sys2Proof.Proofs
open Sys2Proof.Machine

theorem exec_readWord (a : RegAddr) (w : Word) (s : State) :
    exec (decode (makeCommandWord 0b01 a w)) s = .next (readCommand a s) := by
  rw [decode_makeCommandWord]
  exact exec_decodeRead a s

theorem exec_writeWord (a : RegAddr) (w : Word) (s : State) :
    exec (decode (makeCommandWord 0b10 a w)) s = .next (writeCommand a w s) := by
  rw [decode_makeCommandWord]
  exact exec_decodeWrite a w s

/-- A READ word at the front of the list is read and leaves the rest of the list. -/
theorem step_readWord {a : RegAddr} {w : Word} {s : State} {rest : List PortCycle}
    (h : s.port = commandCycle (makeCommandWord 0b01 a w) :: rest) :
    step s = .next (readCommand a (s.setPort rest)) := by
  rw [step_commandCycle s _ rest h, exec_readWord]

/-- A WRITE repeated changes nothing more: what it stores depends on the word alone. -/
theorem writeCommand_writeCommand_same (a : RegAddr) (w : Word) (s : State) :
    writeCommand a w (writeCommand a w s) = writeCommand a w s := by
  rcases regWrite_cases a w s with ⟨rfl, -⟩ | ⟨rfl, -⟩ | ⟨rfl, -⟩ | ⟨rfl, -⟩ | ⟨ha, -⟩
  case inr.inr.inr.inr =>
    simp only [writeCommand, regWrite_ignored _ _ _ ha]
    rfl
  all_goals rfl

/-- READ leaves the register map. -/
@[simp] theorem regRead_readCommand (a b : RegAddr) (s : State) : regRead b (readCommand a s) = regRead b s :=
  regRead_congr rfl rfl rfl rfl rfl b

/-- NOP leaves the register map. -/
@[simp] theorem regRead_nopCommand (b : RegAddr) (s : State) : regRead b (nopCommand s) = regRead b s :=
  regRead_congr rfl rfl rfl rfl rfl b

/-- What is to come on the port is no part of the register map. -/
@[simp] theorem regRead_setPort (b : RegAddr) (s : State) (l : List PortCycle) :
    regRead b (s.setPort l) = regRead b s :=
  regRead_congr rfl rfl rfl rfl rfl b

/-- A cycle without WRITE, STEP and reset is a NOP or a READ. -/
theorem operationOf_nop_or_read {p : PortInputs} (hrst : p.rst = false)
    (hop : p.cmdValid = true → p.cmdOp = 0b00 ∨ p.cmdOp = 0b01) :
    operationOf p = .nop ∨ ∃ a, operationOf p = .read a := by
  cases ho : operationOf p with
  | nop => exact .inl rfl
  | read a => exact .inr ⟨a, rfl⟩
  | reset => simp [operationOf_eq_reset_iff, hrst] at ho
  | write a w =>
    obtain ⟨-, hv, hwrite, -⟩ := (operationOf_eq_write_iff p a w).mp ho
    simp [hwrite, hv] at hop
  | step =>
    obtain ⟨-, hv, hstep⟩ := (operationOf_eq_step_iff p).mp ho
    simp [hstep, hv] at hop

/-- Cycles without WRITE, STEP and reset leave the register map. -/
theorem regRead_applyInputs_of_nop_or_read {ps : List PortInputs}
    (h : ∀ p ∈ ps, p.rst = false ∧ (p.cmdValid = true → p.cmdOp = 0b00 ∨ p.cmdOp = 0b01)) (b : RegAddr) (s : State) :
    regRead b (applyInputs ps s) = regRead b s := by
  induction ps generalizing s with
  | nil => rfl
  | cons p ps ih =>
    obtain ⟨⟨hrst, hop⟩, hps⟩ := List.forall_mem_cons.mp h
    rw [applyInputs_cons, ih hps]
    rcases operationOf_nop_or_read hrst hop with ho | ⟨a, ho⟩ <;> simp [ho]

/-- After cycles without WRITE, STEP and reset a READ still gives the word of the register before them. -/
theorem rdata_of_read_after_inputs {a : RegAddr} {w : Word} {s : State} {ps : List PortInputs}
    {rest : List PortCycle}
    (hps : ∀ p ∈ ps, p.rst = false ∧ (p.cmdValid = true → p.cmdOp = 0b00 ∨ p.cmdOp = 0b01))
    (hport : s.port = ps.map PortCycle.sampled ++ commandCycle (makeCommandWord 0b01 a w) :: rest) :
    ∃ u, runCycles (ps.length + 1) s = .next u ∧ u.rdata = regRead a s := by
  have hbefore := runCycles_of_port_append hport
  refine ⟨_, (runCycles_add hbefore).trans (runCycles_succ_of_next (step_readWord (State.setPort_port ..))), ?_⟩
  simp [regRead_applyInputs_of_nop_or_read hps]

/-- Two STEPs leave another phase than one wherever INC is not 0. -/
theorem stepCommand_stepCommand_acc_ne {s : State} (h : s.inc ≠ 0) :
    (stepCommand (stepCommand s)).acc ≠ (stepCommand s).acc := by
  simpa using h

/-- Settles O49: a READ and a WRITE depend on nothing they change, and a STEP does. The two STEPs run with INC = 1. -/
theorem readsAndWritesAreIdempotent : Obligations.ReadsAndWritesAreIdempotent := by
  refine ⟨fun a w s => ?_, fun a w w' s ps rest hps hport => ?_, fun a w s t h => ?_,
    fun s => ⟨stepCommand s, rfl, stepCommand_acc s⟩, ?_⟩
  · exact ⟨readCommand a s, exec_readWord a w s, readCommand_eq a s, fun b => regRead_readCommand a b s⟩
  · have hfirst := step_readWord hport
    obtain ⟨u, hrun, hrdata⟩ := rdata_of_read_after_inputs (s := readCommand a (s.setPort _)) hps rfl
    exact ⟨_, u, hfirst, (runCycles_succ_of_next hfirst).trans hrun, hrdata.trans (regRead_readCommand ..)⟩
  · rw [exec_writeWord] at h
    obtain rfl := Host.Outcome.next.inj h
    rw [exec_writeWord, writeCommand_writeCommand_same]
  · exact ⟨State.reset.setInc 1, _, _, rfl, rfl, stepCommand_stepCommand_acc_ne (by simp)⟩

end Sys2Proof.Proofs

/-! ## Decoder and encoder against each other (R71, R73, R75, R78) -/

namespace Sys2Proof.Proofs
open Sys2Proof.Machine

/-- An operation field is one of R72's four. -/
theorem opField_cases (op : OpField) : op = 0b00 ∨ op = 0b01 ∨ op = 0b10 ∨ op = 0b11 := by
  revert op
  decide

/-! The address a reserved row keeps decodes to that row. -/

theorem decodeRead_of_addrIn6To7 {a : RegAddr} (h : addrIn6To7 a = true) : decodeRead a = .rdRsvd6_7 a := by
  grind [addrIn6To7, decodeRead]

theorem decodeRead_of_addrIn8To15 {a : RegAddr} (h : addrIn8To15 a = true) : decodeRead a = .rdRsvd8_15 a := by
  grind [addrIn8To15, decodeRead]

theorem decodeWrite_of_addrIn6To7 {a : RegAddr} (h : addrIn6To7 a = true) (w : Word) :
    decodeWrite a w = .wrRsvd6_7 a w := by
  grind [addrIn6To7, decodeWrite]

theorem decodeWrite_of_addrIn8To15 {a : RegAddr} (h : addrIn8To15 a = true) (w : Word) :
    decodeWrite a w = .wrRsvd8_15 a w := by
  grind [addrIn8To15, decodeWrite]

/-- Settles O1: the decoder reads back the three fields the encoder wrote, and a reserved address it keeps is one
of its own row. -/
theorem decodeOfEncodeIsTheCommand : Obligations.DecodeOfEncodeIsTheCommand := by
  intro i hwf
  cases i with
  | rdRsvd6_7 a => exact (decode_makeCommandWord ..).trans (decodeRead_of_addrIn6To7 hwf)
  | rdRsvd8_15 a => exact (decode_makeCommandWord ..).trans (decodeRead_of_addrIn8To15 hwf)
  | wrRsvd6_7 a w => exact (decode_makeCommandWord ..).trans (decodeWrite_of_addrIn6To7 hwf w)
  | wrRsvd8_15 a w => exact (decode_makeCommandWord ..).trans (decodeWrite_of_addrIn8To15 hwf w)
  | _ => exact decode_makeCommandWord ..

/-- The encoder gives a READ's address back, with data 0 (R78). -/
theorem encode_decodeRead (a : RegAddr) : encode (decodeRead a) = makeCommandWord 0b01 a 0 := by
  revert a
  decide

/-- Every READ address is in a row of R75, and a reserved one in its own. -/
theorem wellFormed_decodeRead (a : RegAddr) : (decodeRead a).wellFormed = true := by
  revert a
  decide

/-- The encoder gives a WRITE's address and data back, whatever register the address names (R78). -/
theorem encode_decodeWrite (a : RegAddr) (w : Word) : encode (decodeWrite a w) = makeCommandWord 0b10 a w := by
  induction a using RegAddr.forall_cases with
  | h n => fin_cases n <;> rfl

/-- Every WRITE address is in a row of R75, and a reserved one in its own. -/
theorem wellFormed_decodeWrite (a : RegAddr) (w : Word) : (decodeWrite a w).wellFormed = true := by
  induction a using RegAddr.forall_cases with
  | h n => fin_cases n <;> rfl

/-- Settles O2: one case for each operation, READ and WRITE by address. -/
theorem encodeOfDecodeZeroesTheIgnoredFields : Obligations.EncodeOfDecodeZeroesTheIgnoredFields := by
  intro op a w
  rw [decode_makeCommandWord]
  rcases opField_cases op with rfl | rfl | rfl | rfl
  · exact ⟨rfl, rfl⟩
  · exact ⟨wellFormed_decodeRead a, encode_decodeRead a⟩
  · exact ⟨wellFormed_decodeWrite a w, encode_decodeWrite a w⟩
  · exact ⟨rfl, rfl⟩

end Sys2Proof.Proofs

/-! ## The opcode map (R75) -/

namespace Sys2Proof.Proofs
open Sys2Proof.Machine

/-- No row of R75 looks at the data. -/
theorem matchesWord_data_irrelevant {r : OpcodeRow} (hr : r ∈ opcodeTable) (op : OpField) (a : RegAddr) (w : Word) :
    r.matchesWord (makeCommandWord op a w) = r.matchesWord (makeCommandWord op a 0) := by
  have hmask : wdataField r.mask = 0 := by
    revert r
    decide
  simp only [OpcodeRow.matchesWord]
  rw [← makeCommandWord_fields r.mask, hmask]
  simp [makeCommandWord_and]

/-- No mnemonic depends on the data. -/
theorem mnemonic_decodeFields_data_irrelevant (op : OpField) (a : RegAddr) (w : Word) :
    (decodeFields op a w).mnemonic = (decodeFields op a 0).mnemonic := by
  rcases opField_cases op with rfl | rfl | rfl | rfl
  case inr.inr.inl =>
    change (decodeWrite a w).mnemonic = (decodeWrite a 0).mnemonic
    unfold decodeWrite
    split <;> rfl
  all_goals rfl

/-- The row of each operation and address, at data 0. -/
theorem matchingRows_of_data_zero (op : OpField) (a : RegAddr) :
    (opcodeTable.filter (fun r => r.matchesWord (makeCommandWord op a 0))).map OpcodeRow.mnemonic =
      [(decodeFields op a 0).mnemonic] := by
  revert op a
  decide

/-- The row that matches a word is the row of the command the decoder reads, and no other row matches it. -/
theorem matchingRows_eq (cw : CommandWord) :
    (opcodeTable.filter (fun r => r.matchesWord cw)).map OpcodeRow.mnemonic = [(decode cw).mnemonic] := by
  rw [← makeCommandWord_fields cw, decode_makeCommandWord, mnemonic_decodeFields_data_irrelevant,
    ← matchingRows_of_data_zero, List.filter_congr fun r hr => matchesWord_data_irrelevant hr ..]

/-- Settles O3: the data decides nothing, which leaves the 64 pairs of an operation and an address. -/
theorem oneOpcodeRowMatchesEachWord : Obligations.OneOpcodeRowMatchesEachWord := by
  refine ⟨matchingRows_eq, fun s op a w rest hport => ?_⟩
  rw [step_sampled s _ rest hport]
  rfl

end Sys2Proof.Proofs

/-! ## Commands as the assembler writes them (R78) -/

namespace Sys2Proof.Proofs
open Sys2Proof.Machine

/-- An immediate in R78's range is taken modulo 2^32. -/
theorem ofInt_toNat_of_immediate {imm : ℤ} (hlo : -(2 ^ 31) ≤ imm) (hhi : imm < 2 ^ 32) :
    ((BitVec.ofInt 32 imm).toNat : ℤ) = if 0 ≤ imm then imm else imm + 2 ^ 32 := by
  rw [BitVec.toNat_ofInt]
  split <;> omega

/-- Settles O6: a line assembles to what the decoder reads from the fields it names. -/
theorem assembledCommandsEncodeAsWritten : Obligations.AssembledCommandsEncodeAsWritten := by
  refine ⟨rfl, rfl, fun r => encode_decodeRead r.address, fun r imm hwf => ?_,
    ⟨rfl, rfl, rfl, rfl, rfl, fun _ => rfl⟩, by decide, by decide, by decide⟩
  obtain ⟨hlo, hhi⟩ : -(2 ^ 31) ≤ imm ∧ imm < 2 ^ 32 := by simpa [AsmCommand.wellFormed] using hwf
  exact ⟨_, encode_decodeWrite r.address _, ofInt_toNat_of_immediate hlo hhi⟩

/-- Settles O5: each word's fields, evaluated. -/
theorem wordsOfTheSpecDecode : Obligations.WordsOfTheSpecDecode := by
  unfold Obligations.WordsOfTheSpecDecode
  decide

end Sys2Proof.Proofs

/-! ## What a command word does in the block (R70, R73) -/

namespace Sys2Proof.Proofs
open Sys2Proof.Machine

/-- Settles O4. A READ of INC = 1 is not a READ of CTRL; a WRITE of 1 to INC is not one to PHASE and not a WRITE
of 0. -/
theorem ignoredFieldsHaveNoEffect : Obligations.IgnoredFieldsHaveNoEffect := by
  refine ⟨fun s a a' w w' => ?_, ⟨State.reset.setInc 1, 0, 1, 0, ?_⟩, ⟨State.reset, 1, 3, 1, ?_⟩,
    ⟨State.reset, 1, 0, 1, ?_⟩⟩
  · simp only [decode_makeCommandWord]
    exact ⟨rfl, rfl, rfl⟩
  · simp only [exec_readWord, ne_eq, Host.Outcome.next.injEq]
    decide
  · simp only [exec_writeWord, ne_eq, Host.Outcome.next.injEq]
    decide
  · simp only [exec_writeWord, ne_eq, Host.Outcome.next.injEq]
    decide

/-- Settles O8: without reset, a valid command is the one the edge performs. -/
theorem stepRunsTheDecodedCommand : Obligations.StepRunsTheDecodedCommand := by
  intro s p rest i hport hrst hvalid hdecode _
  rw [step_sampled s p rest hport]
  simp [edgeOfInputs, hrst, hvalid, PortInputs.commandWord, hdecode]

end Sys2Proof.Proofs

/-! ## Commands driven one a cycle (R79, R100, R112, R158, R161) -/

namespace Sys2Proof.Proofs
open Sys2Proof.Machine

/-- The operation of a cycle that presents a NOP's encoding. -/
theorem operationOf_nopWord : operationOf (commandInputs (encode .nop)) = .nop := rfl

/-- The operation of a cycle that presents a STEP's encoding. -/
theorem operationOf_stepWord : operationOf (commandInputs (encode .step)) = .step := rfl

/-- The operation of a cycle that presents a WRITE word. -/
theorem operationOf_writeWord (a : RegAddr) (w : Word) :
    operationOf (commandInputs (makeCommandWord 0b10 a w)) = .write a w := by
  rw [operationOf_eq_write_iff]
  simp [commandInputs]

/-- Encoded commands at the front of the list run in order and leave the rest of the list. -/
theorem runCycles_of_commands {is : List Instr} {s : State} {rest : List PortCycle}
    (h : s.port = is.map (fun i => commandCycle (encode i)) ++ rest) :
    runCycles is.length s =
      .next ((applyInputs (is.map fun i => commandInputs (encode i)) s).setPort rest) := by
  rw [← List.length_map (fun i => commandInputs (encode i))]
  refine runCycles_of_port_append ?_
  rw [h, List.map_map]
  rfl

/-- The same inputs for `n` cycles perform their operation `n` times. -/
theorem applyInputs_replicate (n : ℕ) (p : PortInputs) (s : State) :
    applyInputs (List.replicate n p) s = (operationOf p).apply^[n] s := by
  induction n generalizing s with
  | zero => rfl
  | succ n ih => rw [List.replicate_succ, applyInputs_cons, ih, Function.iterate_succ_apply]

/-- A command repeated in `n` cycles performs its operation `n` times. -/
theorem runCycles_of_replicate {i : Instr} {n : ℕ} {s : State} {rest : List PortCycle}
    (h : s.port = (List.replicate n i).map (fun i => commandCycle (encode i)) ++ rest) :
    runCycles n s = .next (((operationOf (commandInputs (encode i))).apply^[n] s).setPort rest) := by
  have hrun := runCycles_of_commands h
  rwa [List.length_replicate, List.map_replicate, applyInputs_replicate] at hrun

/-- A WRITE word at the front of the list is written and leaves the rest of the list. -/
theorem runCycles_writeWord {a : RegAddr} {w : Word} {s : State} {rest : List PortCycle}
    (h : s.port = commandCycle (makeCommandWord 0b10 a w) :: rest) :
    runCycles 1 s = .next ((writeCommand a w s).setPort rest) := by
  rw [runCycles_succ_of_next (step_of_port_cons h), operationOf_writeWord]
  rfl

/-- R101, `n` times over. -/
theorem stepCommand_iterate_acc_toNat (n : ℕ) (s : State) :
    (stepCommand^[n] s).acc.toNat = (s.acc.toNat + n * s.inc.toNat) % 2 ^ 32 := by
  induction n generalizing s with
  | zero => simpa using (Nat.mod_eq_of_lt s.acc.isLt).symm
  | succ n ih =>
    rw [Function.iterate_succ_apply, ih, stepCommand_acc, stepCommand_inc, BitVec.toNat_add, Nat.mod_add_mod]
    ring_nf

/-- STEPs leave INC, BLEND, SHAPE and RDATA (R100). -/
theorem stepCommand_iterate_frame (n : ℕ) (s : State) :
    (stepCommand^[n] s).inc = s.inc ∧ (stepCommand^[n] s).blend = s.blend ∧
    (stepCommand^[n] s).shape = s.shape ∧ (stepCommand^[n] s).rdata = s.rdata := by
  induction n generalizing s with
  | zero => exact ⟨rfl, rfl, rfl, rfl⟩
  | succ n ih => exact ih (stepCommand s)

/-- A second NOP changes nothing more (R112). -/
theorem nopCommand_iterate_succ (n : ℕ) (s : State) : nopCommand^[n + 1] s = nopCommand s := by
  rw [Function.iterate_succ_apply]
  exact Function.iterate_fixed rfl n

/-- The last of `n + 1` STEPs raises OUTV alone and shows the sample at the phase it leaves (R100). -/
theorem stepCommand_iterate_succ_shown (n : ℕ) (s : State) :
    (stepCommand^[n + 1] s).rdv = false ∧ (stepCommand^[n + 1] s).outv = true ∧
    (s.blend.toNat ≤ 65536 →
      (stepCommand^[n + 1] s).out.toInt = blendedSample (stepCommand^[n + 1] s).acc s.blend s.shape) := by
  obtain ⟨-, hblend, hshape, -⟩ := stepCommand_iterate_frame n s
  rw [Function.iterate_succ_apply', ← hblend, ← hshape]
  exact ⟨rfl, rfl, nextSample_toInt⟩

/-- Settles O59: each expansion is one command, or one repeated, and the run is that many of its operation. -/
theorem repeatAndShapePseudoInstructionsRun : Obligations.RepeatAndShapePseudoInstructionsRun := by
  refine ⟨fun fs is => ⟨fun h => absurd h.1 (by decide), fun h => absurd h.1 (by decide)⟩,
    fun fs n hn => ⟨⟨_, hn, rfl⟩, ⟨_, hn, rfl⟩⟩, fun fs n is s rest hport => ⟨?_, ?_⟩,
    fun fs is s rest hport => ⟨?_, ?_, ?_⟩, fun fs => ⟨_, _, _, rfl, rfl, rfl⟩⟩
  · rintro ⟨hn, rfl⟩
    obtain ⟨m, rfl⟩ := Nat.exists_eq_add_of_le' hn
    obtain ⟨hinc, hblend, hshape, hrdata⟩ := stepCommand_iterate_frame (m + 1) s
    obtain ⟨hrdv, houtv, hout⟩ := stepCommand_iterate_succ_shown m s
    have hrun : runCycles (m + 1) s = .next ((stepCommand^[m + 1] s).setPort rest) := runCycles_of_replicate hport
    exact ⟨List.length_replicate, List.map_replicate, _, hrun, stepCommand_iterate_acc_toNat (m + 1) s, hinc, hblend,
      hshape, hrdata, hrdv, houtv, rfl, hout⟩
  · rintro ⟨hn, rfl⟩
    obtain ⟨m, rfl⟩ := Nat.exists_eq_add_of_le' hn
    have hrun : runCycles (m + 1) s = .next ((nopCommand^[m + 1] s).setPort rest) := runCycles_of_replicate hport
    exact ⟨List.map_replicate, by rw [hrun, nopCommand_iterate_succ]; rfl⟩
  · rintro rfl
    exact ⟨rfl, runCycles_writeWord hport⟩
  · rintro rfl
    exact ⟨rfl, runCycles_writeWord hport⟩
  · rintro rfl
    exact ⟨rfl, runCycles_writeWord hport⟩
end Sys2Proof.Proofs

/-! ## The nearest code: R79's formulas as roundings

floor(x + 1/2) is `round x`, so each formula has one word, and what it says of the operand is the distance of a real
number from its rounding. -/

namespace Sys2Proof.Proofs
open Sys2Proof.Machine

theorem isFloor_add_half_iff (x : ℝ) (n : ℤ) : isFloor (x + 1 / 2) n ↔ round x = n := by
  rw [round_eq, Int.floor_eq_iff, isFloor]

/-- The word that holds `n` modulo 2^32. -/
theorem eq_ofInt_iff_toNat (w : Word) (n : ℤ) : w = BitVec.ofInt 32 n ↔ (w.toNat : ℤ) = n % 2 ^ 32 := by
  rw [← BitVec.toNat_inj, BitVec.toNat_ofInt]
  omega

/-- The word that holds `n` in two's complement, where one does. -/
theorem toInt_eq_iff (w : Word) (n : ℤ) :
    n = w.toInt ↔ (-(2 ^ 31) ≤ n ∧ n < 2 ^ 31) ∧ w = BitVec.ofInt 32 n := by
  constructor
  · rintro rfl
    exact ⟨⟨BitVec.le_toInt w, BitVec.toInt_lt⟩, (BitVec.ofInt_toInt).symm⟩
  · rintro ⟨⟨hlo, hhi⟩, rfl⟩
    exact (BitVec.toInt_ofInt_eq_self (by norm_num) hlo hhi).symm

/-- `SETFREQ` and `SETPHASE` share a form: an operand `y` of period `T` is coded in steps of `T / 2^32`, the nearest
number of steps taken modulo 2^32. -/
noncomputable def phaseWord (T y : ℝ) : Word := BitVec.ofInt 32 (round (y * 2 ^ 32 / T))

theorem phaseWord_toNat (T y : ℝ) : ((phaseWord T y).toNat : ℤ) = round (y * 2 ^ 32 / T) % 2 ^ 32 :=
  (eq_ofInt_iff_toNat ..).mp rfl

theorem isFloorModWord_iff_eq_phaseWord (T y : ℝ) (w : Word) :
    isFloorModWord (y * 2 ^ 32 / T + 1 / 2) w ↔ w = phaseWord T y := by
  simp only [isFloorModWord, isFloor_add_half_iff, exists_eq_left', phaseWord, eq_ofInt_iff_toNat]

theorem setFreq_expandsTo_iff {fs : ℝ} (hfs : 0 < fs) (f : ℝ) (is : List Instr) :
    (Pseudo.setFreq f).expandsTo fs is ↔ is = [.wrInc (phaseWord fs f)] := by
  simp only [Pseudo.expandsTo, isFloorModWord_iff_eq_phaseWord, exists_eq_left, hfs, true_and]

theorem setPhase_expandsTo_iff (fs θ : ℝ) (is : List Instr) :
    (Pseudo.setPhase θ).expandsTo fs is ↔ is = [.wrPhase (phaseWord (2 * Real.pi) θ)] := by
  simp only [Pseudo.expandsTo, isFloorModWord_iff_eq_phaseWord, exists_eq_left]

section
variable {T : ℝ} (hT : 0 < T)
include hT

/-- An operand that is a whole number of steps is coded by that number. -/
theorem phaseWord_of_steps {y : ℝ} {n : ℤ} (h : y * 2 ^ 32 = n * T) : phaseWord T y = BitVec.ofInt 32 n := by
  rw [phaseWord, h, mul_div_cancel_right₀ _ hT.ne', round_intCast]

/-- Whole periods are whole multiples of 2^32 steps, which the reduction drops. -/
theorem phaseWord_add_periods (y : ℝ) (k : ℤ) : phaseWord T (y + k * T) = phaseWord T y := by
  have hsteps : (y + k * T) * 2 ^ 32 / T = y * 2 ^ 32 / T + (k * 2 ^ 32 : ℤ) := by
    have := hT.ne'
    push_cast
    field
  rw [phaseWord, eq_comm, eq_ofInt_iff_toNat, phaseWord_toNat, hsteps, round_add_intCast, Int.add_mul_emod_self_right]

/-- The nearest number of steps is within half a step of the operand. -/
theorem abs_round_steps_sub_le (y : ℝ) : |round (y * 2 ^ 32 / T) * T / 2 ^ 32 - y| ≤ T / 2 ^ 33 := by
  have hround := abs_sub_round (y * 2 ^ 32 / T)
  have hscale : round (y * 2 ^ 32 / T) * T / 2 ^ 32 - y =
      -(T / 2 ^ 32 * (y * 2 ^ 32 / T - round (y * 2 ^ 32 / T))) := by
    field_simp
    ring
  rw [hscale, abs_neg, abs_mul, abs_of_pos (by positivity)]
  calc T / 2 ^ 32 * |y * 2 ^ 32 / T - round (y * 2 ^ 32 / T)| ≤ T / 2 ^ 32 * (1 / 2) := by gcongr
    _ = T / 2 ^ 33 := by ring

/-- The stored code is within half a step of every operand, up to whole periods. -/
theorem exists_periods_abs_phaseWord_sub_le (y : ℝ) :
    ∃ k : ℤ, |(phaseWord T y).toNat * T / 2 ^ 32 + k * T - y| ≤ T / 2 ^ 33 := by
  have hword := phaseWord_toNat T y
  have hsplit : ((phaseWord T y).toNat : ℝ) + 2 ^ 32 * (round (y * 2 ^ 32 / T) / 2 ^ 32 : ℤ) =
      round (y * 2 ^ 32 / T) := by
    have := Int.emod_add_mul_ediv (round (y * 2 ^ 32 / T)) (2 ^ 32)
    rw [← hword] at this
    exact_mod_cast this
  refine ⟨round (y * 2 ^ 32 / T) / 2 ^ 32, le_of_eq_of_le ?_ (abs_round_steps_sub_le hT y)⟩
  rw [← hsplit]
  ring_nf

/-- Below the wrap no period is dropped. -/
theorem abs_phaseWord_sub_le_of_lt {y : ℝ} (h0 : 0 ≤ y) (h1 : y < T * (1 - 1 / 2 ^ 33)) :
    |(phaseWord T y).toNat * T / 2 ^ 32 - y| ≤ T / 2 ^ 33 := by
  have hlo : 0 ≤ round (y * 2 ^ 32 / T) := by
    rw [round_eq]
    positivity
  have hhi : round (y * 2 ^ 32 / T) < 2 ^ 32 := by
    have hsteps : y * 2 ^ 32 / T < 2 ^ 32 - 1 / 2 := by
      rw [div_lt_iff₀ hT]
      linarith
    rw [round_eq, Int.floor_lt]
    push_cast
    linarith
  have hword := phaseWord_toNat T y
  rw [Int.emod_eq_of_lt hlo hhi] at hword
  have hcast : ((phaseWord T y).toNat : ℝ) = round (y * 2 ^ 32 / T) := by exact_mod_cast hword
  rw [hcast]
  exact abs_round_steps_sub_le hT y

end

end Sys2Proof.Proofs

/-! ## The nearest blend code (R79, R160) -/

namespace Sys2Proof.Proofs
open Sys2Proof.Machine

/-- The word of R79's formula for a blend factor. -/
noncomputable def blendFactorWord (b : ℝ) : Word := BitVec.ofInt 32 (round (b * 65536))

/-- The factors whose code fits 32-bit two's complement. -/
theorem round_blend_fits_iff (b : ℝ) :
    (-(2 ^ 31) ≤ round (b * 65536) ∧ round (b * 65536) < 2 ^ 31) ↔
      -32768 - 1 / 2 ^ 17 ≤ b ∧ b < 32768 - 1 / 2 ^ 17 := by
  rw [round_eq, Int.le_floor, Int.floor_lt]
  push_cast
  constructor <;> rintro ⟨hlo, hhi⟩ <;> constructor <;> linarith

theorem setBlend_expandsTo_iff (fs b : ℝ) (is : List Instr) :
    (Pseudo.setBlend b).expandsTo fs is ↔
      (-32768 - 1 / 2 ^ 17 ≤ b ∧ b < 32768 - 1 / 2 ^ 17) ∧ is = [.wrBlend (blendFactorWord b)] := by
  simp only [Pseudo.expandsTo, isFloorSignedWord, isFloor_add_half_iff, toInt_eq_iff, round_blend_fits_iff, and_assoc,
    exists_and_left, exists_eq_left, blendFactorWord]

/-- The block's clamp of a code is the clamp of its factor to [0, 1]. -/
theorem clamp_div_eq (n : ℤ) : (clamp n 0 65536 : ℝ) / 65536 = min (max ((n : ℝ) / 65536) 0) 1 := by
  rw [clamp, Int.cast_min, Int.cast_max, ← min_div_div_right (by norm_num), ← max_div_div_right (by norm_num)]
  norm_num

/-- Clamping to [0, 1] brings no two factors further apart. -/
theorem abs_clamp_sub_clamp_le (x y : ℝ) : |min (max x 0) 1 - min (max y 0) 1| ≤ |x - y| := by
  refine (abs_min_sub_min_le_max ..).trans ?_
  rw [sub_self, abs_zero, max_eq_left (abs_nonneg _)]
  exact abs_max_sub_max_le_abs x y 0

/-- The block stores the code nearest to the factor clamped to [0, 1] (R160). -/
theorem abs_blendOperand_sub_clamp_le {b : ℝ} (hlo : -32768 - 1 / 2 ^ 17 ≤ b) (hhi : b < 32768 - 1 / 2 ^ 17) :
    |((blendOperand (blendFactorWord b)).toNat : ℝ) / 65536 - min (max b 0) 1| ≤ 1 / 2 ^ 17 := by
  have hint : (blendFactorWord b).toInt = round (b * 65536) :=
    ((toInt_eq_iff ..).mpr ⟨(round_blend_fits_iff b).mpr ⟨hlo, hhi⟩, rfl⟩).symm
  have hcode := blendOperand_toNat (blendFactorWord b)
  rw [hint] at hcode
  have hcast : ((blendOperand (blendFactorWord b)).toNat : ℝ) = clamp (round (b * 65536)) 0 65536 := by
    exact_mod_cast hcode
  have hround := abs_le.mp (abs_sub_round (b * 65536))
  rw [hcast, clamp_div_eq]
  refine (abs_clamp_sub_clamp_le ..).trans ?_
  rw [abs_le]
  constructor <;> linarith [hround.1, hround.2]

theorem exec_wrBlend (w : Word) (s : State) :
    ∃ t, exec (.wrBlend w) s = .next t ∧ t.blend = blendOperand w := ⟨_, rfl, rfl⟩

end Sys2Proof.Proofs

/-! ## What SETFREQ, SETBLEND and SETPHASE leave (R79) -/

namespace Sys2Proof.Proofs
open Sys2Proof.Machine

/-- R79's worked encoding. -/
theorem phaseWord_440 : phaseWord 44100 440 = 0x028DDFB9 := by
  have hround : round ((440 : ℝ) * 2 ^ 32 / 44100) = 42852281 := by
    rw [← isFloor_add_half_iff, isFloor]
    norm_num
  rw [phaseWord, hround]
  rfl

/-- Settles O7: each operand lies where nothing wraps and nothing is clamped. -/
theorem pseudoInstructionsSetTheNearestCode : Obligations.PseudoInstructionsSetTheNearestCode := by
  have h440 (is : List Instr) : (Pseudo.setFreq 440).expandsTo 44100 is ↔ is = [.wrInc 0x028DDFB9] := by
    rw [setFreq_expandsTo_iff (by norm_num), phaseWord_440]
  refine ⟨(h440 _).mpr rfl, fun is his => ?_, fun fs f hfs h0 h1 => ?_, fun fs b s h0 h1 => ?_, fun fs θ h0 h1 => ?_⟩
  · rw [(h440 is).mp his]
    rfl
  · exact ⟨_, (setFreq_expandsTo_iff hfs f _).mpr rfl, abs_phaseWord_sub_le_of_lt hfs h0 h1⟩
  · have hlo : -32768 - 1 / 2 ^ 17 ≤ b := by linarith
    have hhi : b < 32768 - 1 / 2 ^ 17 := by linarith
    obtain ⟨t, hexec, hblend⟩ := exec_wrBlend (blendFactorWord b) s
    have hnear := abs_blendOperand_sub_clamp_le hlo hhi
    rw [← hblend, max_eq_left h0, min_eq_left h1] at hnear
    exact ⟨_, t, (setBlend_expandsTo_iff fs b _).mpr ⟨⟨hlo, hhi⟩, rfl⟩, hexec, hnear⟩
  · refine ⟨_, (setPhase_expandsTo_iff fs θ _).mpr rfl, ?_⟩
    rw [mul_comm (2 * Real.pi) (BitVec.toNat _ : ℝ)]
    exact abs_phaseWord_sub_le_of_lt Real.two_pi_pos h0 h1

/-- Settles O58: periods drop out of the phase word, and the clamp out of the distance. -/
theorem pseudoInstructionsReduceAndClamp : Obligations.PseudoInstructionsReduceAndClamp := by
  refine ⟨fun fs f hfs => ?_, fun fs f k is hfs => ?_, fun fs hfs => ⟨?_, ?_⟩, fun fs θ => ?_, fun fs θ k is => ?_,
    fun fs b hlo hhi => ?_, fun fs b is hout his => ?_⟩
  · obtain ⟨k, hnear⟩ := exists_periods_abs_phaseWord_sub_le hfs f
    exact ⟨_, k, setFreq_expandsTo_iff hfs f, hnear⟩
  · rw [setFreq_expandsTo_iff hfs, setFreq_expandsTo_iff hfs, phaseWord_add_periods hfs]
  · have hquarter : phaseWord fs (-(fs / 4)) = BitVec.ofInt 32 (-2 ^ 30) :=
      phaseWord_of_steps hfs (by push_cast; ring)
    rw [setFreq_expandsTo_iff hfs, hquarter]
    rfl
  · have hwhole : phaseWord fs fs = BitVec.ofInt 32 (2 ^ 32) := phaseWord_of_steps hfs (by push_cast; ring)
    rw [setFreq_expandsTo_iff hfs, hwhole]
    rfl
  · obtain ⟨k, hnear⟩ := exists_periods_abs_phaseWord_sub_le Real.two_pi_pos θ
    refine ⟨_, k, setPhase_expandsTo_iff fs θ, ?_⟩
    rwa [mul_comm (2 * Real.pi) (BitVec.toNat _ : ℝ), mul_comm (2 * Real.pi) (k : ℝ)]
  · rw [setPhase_expandsTo_iff, setPhase_expandsTo_iff, mul_comm _ (k : ℝ), phaseWord_add_periods Real.two_pi_pos]
  · refine ⟨_, fun is => by rw [setBlend_expandsTo_iff, and_iff_right ⟨hlo, hhi⟩], fun s => ?_⟩
    obtain ⟨t, hexec, hblend⟩ := exec_wrBlend (blendFactorWord b) s
    exact ⟨t, hexec, hblend ▸ abs_blendOperand_sub_clamp_le hlo hhi⟩
  · obtain ⟨⟨hlo, hhi⟩, -⟩ := (setBlend_expandsTo_iff ..).mp his
    rcases hout with hout | hout <;> linarith

end Sys2Proof.Proofs

/-! ## MIX on 16-bit operands (R109) -/

namespace Sys2Proof.Proofs
open Sys2Proof.Machine

/-- The number MIX divides by 65536 is a weighted sum of operands in `lo .. hi`, the weights adding up to 65536. -/
theorem blendSum_mem_range {s a lo hi : ℤ} {B : ℕ} (hs : lo ≤ s ∧ s ≤ hi) (ha : lo ≤ a ∧ a ≤ hi) (hB : B ≤ 65536) :
    65536 * lo ≤ s * (65536 - B) + a * B ∧ s * (65536 - B) + a * B ≤ 65536 * hi := by
  have hB' : (B : ℤ) ≤ 65536 := by exact_mod_cast hB
  constructor <;> nlinarith

/-- MIX as the floor R109 writes. -/
theorem mix_eq_floor (s a : ℤ) (B : ℕ) :
    mix s a B = ⌊((s * (65536 - B) + a * B + 32768 : ℤ) : ℚ) / 65536⌋ :=
  (Rat.floor_intCast_div_natCast _ 65536).symm

/-- MIX rounds the exact blend to nearest, a tie upwards. -/
theorem mix_sub_blend_mem_Ioc (s a : ℤ) (B : ℕ) :
    (mix s a B : ℚ) - ((1 - (B : ℚ) / 65536) * s + (B : ℚ) / 65536 * a) ∈ Set.Ioc (-(1 / 2)) (1 / 2) := by
  obtain ⟨hlo, hhi⟩ := mix_bounds s a B
  rw [← Int.cast_le (R := ℚ)] at hlo
  rw [← Int.cast_lt (R := ℚ)] at hhi
  push_cast at hlo hhi
  constructor <;> linarith

@[simp] theorem mix_zero (s a : ℤ) : mix s a 0 = s := by
  have := mix_bounds s a 0
  omega

@[simp] theorem mix_one (s a : ℤ) : mix s a 65536 = a := by
  have := mix_bounds s a 65536
  omega

/-- Settles O28: the sum MIX divides and MIX itself are weighted means of the operands. -/
theorem mixRoundsTheLinearBlend : Obligations.MixRoundsTheLinearBlend := by
  intro s a B hs0 hs1 ha0 ha1 hB
  obtain ⟨hsum0, hsum1⟩ := blendSum_mem_range ⟨hs0, hs1⟩ ⟨ha0, ha1⟩ hB
  obtain ⟨hlo, hhi⟩ := mix_sub_blend_mem_Ioc s a B
  obtain ⟨hmin, hmax⟩ := mix_mem_range ⟨min_le_left s a, le_max_left s a⟩ ⟨min_le_right s a, le_max_right s a⟩ hB
  obtain ⟨hmix0, hmix1⟩ := mix_mem_range ⟨hs0, hs1⟩ ⟨ha0, ha1⟩ hB
  exact ⟨abs_le.mpr ⟨by linarith, by linarith⟩, mix_eq_floor s a B, hlo, hhi, mix_zero s a, mix_one s a, hmin, hmax,
    hmix0, hmix1⟩

end Sys2Proof.Proofs

/-! ## STEP: its effect, its frame and its sample (R100 to R102, R108, R110) -/

namespace Sys2Proof.Proofs
open Sys2Proof.Machine

theorem exec_step (s : State) : exec .step s = .next (stepCommand s) := rfl

/-- R100 for a legal blend code: the sample STEP leaves is the blend at the phase it leaves. -/
theorem stepCommand_out_toInt {s : State} (h : s.blend.toNat ≤ 65536) :
    (stepCommand s).out.toInt = blendedSample (stepCommand s).acc s.blend s.shape := nextSample_toInt h

theorem blendedSample_of_blend_zero (acc : Word) {blend : BlendCode} (shape : BitVec 1) (h : blend = 0) :
    blendedSample acc blend shape = sine acc := by
  subst h
  exact mix_zero _ _

theorem blendedSample_of_blend_one (acc : Word) {blend : BlendCode} (shape : BitVec 1) (h : blend.toNat = 65536) :
    blendedSample acc blend shape = secondWave shape acc := by
  rw [blendedSample, h, mix_one]

/-- The phase advance of R101 as a number. -/
theorem stepCommand_acc_toNat (s : State) :
    (stepCommand s).acc.toNat = (s.acc.toNat + s.inc.toNat) % 2 ^ 32 := BitVec.toNat_add _ _

/-- With BLEND = 0 the sample is the sine alone. -/
theorem stepCommand_out_of_blend_zero {s : State} (h : s.blend = 0) :
    (stepCommand s).out.toInt = sine (stepCommand s).acc := by
  rw [stepCommand_out_toInt (by rw [h]; decide), blendedSample_of_blend_zero _ _ h]

/-- With BLEND = 65536 the sample is the second waveform alone. -/
theorem stepCommand_out_of_blend_one {s : State} (h : s.blend.toNat = 65536) :
    (stepCommand s).out.toInt = secondWave s.shape (stepCommand s).acc := by
  rw [stepCommand_out_toInt h.le, blendedSample_of_blend_one _ _ h]

/-- Settles O17: STEP's whole effect, and each corner case from its lemma above. -/
theorem stepAdvancesThenBlends : Obligations.StepAdvancesThenBlends := by
  refine ⟨fun s hblend => ?_, fun a w => decode_makeCommandWord 3 a w, fun s hinc => ⟨_, exec_step s, ?_⟩,
    ⟨_, exec_step _, rfl, ?_⟩, fun s hinc => ⟨_, _, exec_step s, exec_step _, ?_, ?_, ?_⟩,
    fun s => ⟨_, exec_step s, stepCommand_acc_toNat s⟩, fun s hblend => ⟨_, exec_step s, ?_⟩,
    fun s hblend => ⟨_, exec_step s, ?_⟩, fun s hacc hinc hblend hshape => ⟨_, exec_step s, ?_, ?_⟩⟩
  · rw [exec_step, stepCommand_eq, nextSample_legal s hblend, blendedSample_eq]
  · simp [hinc]
  · decide
  · simp [hinc]
  · simp [hinc]
  · simp [hinc, BitVec.add_assoc]
  · exact stepCommand_out_of_blend_zero hblend
  · exact stepCommand_out_of_blend_one hblend
  · simp [hacc, hinc]
  · rw [stepCommand_out_of_blend_zero hblend, stepCommand_acc, hacc, hinc]
    decide

/-- Settles O18: STEP's effect, with the free value for its sample. -/
theorem stepBeyondTheLargestBlendCodeRuns : Obligations.StepBeyondTheLargestBlendCodeRuns := by
  intro s hblend
  rw [exec_step, stepCommand_eq, nextSample_beyondOne s hblend]

/-- Settles O19: a phase is a 32-bit number, so less than one turn. -/
theorem phaseAdvanceWrapsModulo : Obligations.PhaseAdvanceWrapsModulo := by
  intro s
  have hlt : ((stepCommand s).acc.toNat : ℝ) < 2 ^ 32 := by exact_mod_cast (stepCommand s).acc.isLt
  refine ⟨_, exec_step s, stepCommand_acc_toNat s, by positivity, ?_⟩
  rw [div_lt_iff₀ (by positivity)]
  exact mul_lt_mul_of_pos_left hlt Real.two_pi_pos

/-- Settles O27: the blend's second operand is `secondWave` of SHAPE at the phase STEP leaves. -/
theorem shapeSelectsTheSecondWaveform : Obligations.ShapeSelectsTheSecondWaveform := by
  intro s hblend
  refine ⟨_, exec_step s, stepCommand_acc s, fun hshape => ?_, fun hshape => ?_⟩
  · rw [stepCommand_out_toInt hblend, blendedSample, hshape]
    exact congrArg (mix _ · _) (secondWave_triangle _)
  · rw [stepCommand_out_toInt hblend, blendedSample, hshape]
    exact congrArg (mix _ · _) (secondWave_saw _)

/-- Settles O29: the sample is the blend itself, and the blend of 16-bit waves stays within 16 bits. -/
theorem everySampleFitsSixteenBits : Obligations.EverySampleFitsSixteenBits := by
  intro s hblend
  have hout := stepCommand_out_toInt hblend
  obtain ⟨hlo, hhi⟩ := blendedSample_bounds (stepCommand s).acc s.shape hblend
  refine ⟨_, exec_step s, hout, by rwa [hout], by rwa [hout], fun hzero => ?_, fun hshape hone => ⟨?_, ?_⟩,
    fun hshape hone => ⟨?_, ?_⟩⟩
  · rw [stepCommand_out_of_blend_zero hzero]
    exact sine_bounds _
  · rw [stepCommand_out_of_blend_one hone, hshape]
    exact secondWave_triangle _
  · rw [hout]
    exact ⟨hlo, hhi⟩
  · rw [stepCommand_out_of_blend_one hone, hshape]
    exact secondWave_saw _
  · rw [hout]
    exact ⟨hlo, hhi⟩

/-- A write of PHASE and `n` STEPs after it, driven one a cycle. -/
theorem runCycles_writePhase_steps {p : Word} {n : ℕ} {s : State} {rest : List PortCycle}
    (h : s.port = commandCycle (encode (.wrPhase p)) :: List.replicate n (commandCycle (encode .step)) ++ rest) :
    runCycles (n + 1) s = .next ((stepCommand^[n] (writeCommand 3 p s)).setPort rest) := by
  have hrun := runCycles_of_commands (is := .wrPhase p :: List.replicate n .step) (s := s) (rest := rest)
    (by rw [h, List.map_cons, List.map_replicate])
  rwa [List.length_cons, List.length_replicate, List.map_cons, List.map_replicate, applyInputs_cons,
    applyInputs_replicate, operationOf_stepWord, encode, operationOf_writeWord] at hrun

/-- R102: after a write of PHASE the phase and the sample of the last of `n + 1` STEPs. -/
theorem stepCommand_iterate_after_writePhase (p : Word) (n : ℕ) {s : State} (h : s.blend.toNat ≤ 65536) :
    (stepCommand^[n + 1] (writeCommand 3 p s)).acc.toNat = (p.toNat + (n + 1) * s.inc.toNat) % 2 ^ 32 ∧
    (stepCommand^[n + 1] (writeCommand 3 p s)).out.toInt =
      blendedSample (stepCommand^[n + 1] (writeCommand 3 p s)).acc s.blend s.shape := by
  obtain ⟨-, -, hout⟩ := stepCommand_iterate_succ_shown n (writeCommand 3 p s)
  exact ⟨stepCommand_iterate_acc_toNat (n + 1) (writeCommand 3 p s), hout h⟩

/-- Settles O20; the second part is the first with p = 0 and one STEP. -/
theorem nthStepEvaluatesAtAdvancedPhase : Obligations.NthStepEvaluatesAtAdvancedPhase := by
  constructor
  · intro s p n rest hblend hport
    obtain ⟨hacc, hout⟩ := stepCommand_iterate_after_writePhase p n hblend
    exact ⟨_, runCycles_writePhase_steps hport, rfl, hacc, hout⟩
  · intro s rest hblend hport
    have hrun := runCycles_writePhase_steps (n := 1) hport
    obtain ⟨-, hout⟩ := stepCommand_iterate_after_writePhase 0 0 hblend
    have hacc : (stepCommand (writeCommand 3 0 s)).acc = s.inc := BitVec.zero_add _
    exact ⟨_, hrun, hacc, hacc ▸ hout⟩

end Sys2Proof.Proofs

/-! ## NOP (R112) -/

namespace Sys2Proof.Proofs
open Sys2Proof.Machine

/-- A cycle without reset, and with no command or op 00, is a NOP. -/
theorem operationOf_eq_nop {p : PortInputs} (hrst : p.rst = false) (hop : p.cmdValid = false ∨ p.cmdOp = 0b00) :
    operationOf p = .nop := by
  rcases hop with h | h <;> simp [operationOf, hrst, h]

/-- NOPs in a row, at least one, do what one does. -/
theorem applyInputs_of_nops {p : PortInputs} {ps : List PortInputs} (h : ∀ q ∈ p :: ps, operationOf q = .nop)
    (s : State) : applyInputs (p :: ps) s = nopCommand s := by
  induction ps generalizing p s with
  | nil => simp [h p]
  | cons q qs ih =>
    rw [applyInputs_cons, h p List.mem_cons_self, ih fun r hr => h r (List.mem_cons_of_mem p hr)]
    rfl

/-- Settles O32: each such cycle performs `nopCommand`, and a second one changes nothing more. -/
theorem nopClearsOnlyTheStrobes : Obligations.NopClearsOnlyTheStrobes := by
  refine ⟨fun s => rfl, fun a w => decode_makeCommandWord 0 a w, fun s p ps rest hnops hport => ?_, fun s t hexec => ?_⟩
  · have hops : ∀ q ∈ p :: ps, operationOf q = .nop := fun q hq => operationOf_eq_nop (hnops q hq).1 (hnops q hq).2
    rw [runCycles_of_port_append hport, applyInputs_of_nops hops]
    rfl
  · obtain rfl := Host.Outcome.next.inj hexec
    exact ⟨rfl, rfl⟩

end Sys2Proof.Proofs

/-! ## The triangle and the saw at a written-out phase (R106, R107) -/

namespace Sys2Proof.Proofs
open Sys2Proof.Machine

/-- The phase with `v` in acc[31:16] and `low` below it. -/
theorem shapePhase_ofNat_fields {v low : ℕ} (hlow : low < 65536) :
    shapePhase (BitVec.ofNat 32 (v * 65536 + low)) = BitVec.ofNat 16 v := by
  apply BitVec.eq_of_toNat_eq
  rw [shapePhase_toNat, BitVec.toNat_ofNat, BitVec.toNat_ofNat]
  omega

/-- The triangle is the real one at every step of acc[31:16] but the peak. -/
theorem triangleOf_eq_triangleWave {v : ℕ} (hv : v < 65536) (hpeak : v ≠ 16384) :
    (triangleOf v : ℝ) = triangleWave v := by
  have hv' : (v : ℝ) ≤ 65536 := by exact_mod_cast hv.le
  obtain ⟨hrise, hfall, hback⟩ := triangleWave_cases (Nat.cast_nonneg v) hv'
  rcases triangleOf_cases v with ⟨h, e⟩ | ⟨h, e⟩ | ⟨h, h', e⟩ | ⟨h, e⟩ <;> rw [e]
  · rw [hrise (by exact_mod_cast h.le)]
    push_cast
    rfl
  · exact absurd h hpeak
  · rw [hfall (by exact_mod_cast h.le) (by exact_mod_cast h'.le)]
    push_cast
    rfl
  · rw [hback (by exact_mod_cast h)]
    push_cast
    rfl

/-- R106's closed form as the rule writes it. -/
theorem triangleWave_eq (u : ℝ) :
    triangleWave u = 32768 * (2 / Real.pi) * Real.arcsin (Real.sin (2 * Real.pi * u / 65536)) :=
  (mul_assoc _ _ _).symm

/-- Settles O25: the three pieces of `triangleOf`, and the real triangle's pieces at the same v. -/
theorem triangleIsTheSineAlignedTriangle : Obligations.TriangleIsTheSineAlignedTriangle := by
  refine ⟨fun v low hv hlow => ?_, ?_⟩
  · have hphase : triangle (BitVec.ofNat 32 (v * 65536 + low)) = triangleOf v := by
      rw [triangle, shapePhase_ofNat_fields hlow, BitVec.toNat_ofNat, Nat.mod_eq_of_lt hv]
    have hcases := triangleOf_cases v
    simp only [hphase, ← triangleWave_eq]
    refine ⟨?_, ?_, ?_, ?_, ?_, ?_, ?_, triangleOf_eq_triangleWave hv⟩ <;> omega
  · have hpeak := (triangleWave_cases (u := 0x4000) (by norm_num) (by norm_num)).1 (by norm_num)
    rw [← triangleWave_eq, hpeak]
    norm_num

/-- R107's closed form, from the angle to the fraction of a turn. -/
theorem sawWave_eq (u : ℝ) :
    sawWave u = 32768 * (2 * Int.fract (2 * Real.pi * u / 65536 / (2 * Real.pi) + 1 / 2) - 1) := by
  have hturns : 2 * Real.pi * u / 65536 / (2 * Real.pi) = u / 65536 := by
    rw [mul_div_assoc, mul_div_cancel_left₀ _ Real.two_pi_pos.ne']
  rw [sawWave, hturns]

/-- The saw is the real one at every step of acc[31:16]. -/
theorem saw_eq_sawWave (acc : Word) : (saw acc : ℝ) = sawWave (shapePhase acc).toNat := by
  have hv : ((shapePhase acc).toNat : ℝ) < 65536 := by exact_mod_cast (shapePhase acc).isLt
  obtain ⟨hlow, hhigh⟩ := sawWave_cases (Nat.cast_nonneg _) hv
  rcases saw_cases acc with ⟨h, e⟩ | ⟨h, e⟩ <;> rw [e]
  · rw [hlow (by exact_mod_cast h), Int.cast_natCast]
  · rw [hhigh (by exact_mod_cast h)]
    push_cast
    rfl

/-- Settles O26: the two pieces of the signed reading, and the real saw's pieces at the same v. -/
theorem sawIsTheSignedTopHalfOfThePhase : Obligations.SawIsTheSignedTopHalfOfThePhase := by
  intro v low hv hlow
  have hphase := shapePhase_ofNat_fields (v := v) hlow
  have hcases := saw_cases (BitVec.ofNat 32 (v * 65536 + low))
  have hreal := saw_eq_sawWave (BitVec.ofNat 32 (v * 65536 + low))
  rw [hphase, BitVec.toNat_ofNat, Nat.mod_eq_of_lt hv] at hcases hreal
  rw [sawWave_eq] at hreal
  refine ⟨congrArg BitVec.toInt hphase, ?_, ?_, ?_, ?_, ?_, ?_, ?_, ?_, hreal⟩ <;> omega

end Sys2Proof.Proofs

/-! ## The quarter and the full-cycle table (R103, R104) -/

namespace Sys2Proof.Proofs
open Sys2Proof.Machine

/-- A sum over `m` rows of `n` columns. -/
theorem sum_range_mul {M : Type*} [AddCommMonoid M] (F : ℕ → M) (m n : ℕ) :
    ∑ k ∈ Finset.range (m * n), F k = ∑ r ∈ Finset.range m, ∑ c ∈ Finset.range n, F (n * r + c) := by
  induction m with
  | zero => simp
  | succ m ih => rw [Nat.succ_mul, Finset.sum_range_add, ih, Finset.sum_range_succ, mul_comm m n]

/-- The checksum of R103: sixteen rows of sixteen entries, and the last entry. -/
theorem sum_quarterSine : ∑ k ∈ Finset.range 257, quarterSine k = 5356550 := by
  have hrows : ∑ r ∈ Finset.range 16, ∑ c ∈ Finset.range 16, quarterSine (16 * r + c) = 5323783 := by decide
  rw [Finset.sum_range_succ, show 256 = 16 * 16 from rfl, sum_range_mul, hrows]
  rfl

/-- Adjacent entries of the quarter differ by 1 to 201, checked along the rows and columns of the table of R103. -/
theorem quarterSine_succ_sub_row_column : ∀ r < 16, ∀ c < 16,
    1 ≤ quarterSine (16 * r + c + 1) - quarterSine (16 * r + c) ∧
    quarterSine (16 * r + c + 1) - quarterSine (16 * r + c) ≤ 201 := by
  decide

theorem quarterSine_succ_sub_bounds {k : ℕ} (hk : k < 256) :
    1 ≤ quarterSine (k + 1) - quarterSine k ∧ quarterSine (k + 1) - quarterSine k ≤ 201 := by
  have := quarterSine_succ_sub_row_column (k / 16) (by omega) (k % 16) (by omega)
  rwa [Nat.div_add_mod] at this

theorem sineWave_quarter (k : ℕ) : sineWave k = 32767 * Real.sin (Real.pi * k / 512) := by
  rw [sineWave]
  ring_nf

/-- Settles O21: the entries against the real sine, and the sum and differences of the table as written. -/
theorem quarterTableIsTheRoundedSine : Obligations.QuarterTableIsTheRoundedSine := by
  refine ⟨fun k hk => ?_, rfl, rfl, rfl, fun k hk => ?_, ?_⟩
  · rw [← sineWave_quarter]
    exact abs_quarterSine_sub_sineWave_le hk
  · have := (quarterSine_succ_sub_bounds hk).1
    omega
  · rw [← sum_quarterSine]
    rfl

/-- The first quarter of the full cycle, its end included. -/
theorem slut_of_le_quarter {i : ℕ} (h : i ≤ 256) : slut (BitVec.ofNat 10 i) = quarterSine i := by
  have hi : (BitVec.ofNat 10 i).toNat = i := Nat.mod_eq_of_lt (by omega)
  rcases slut_cases (BitVec.ofNat 10 i) with ⟨-, e⟩ | ⟨h', -, e⟩ | ⟨h', -, -⟩ | ⟨h', -⟩ <;> rw [hi] at *
  · exact e
  · rw [e, show i = 256 by omega]
  all_goals omega

/-- The second quarter runs back through the first, both its ends included. -/
theorem slut_of_second_quarter {i : ℕ} (h0 : 256 ≤ i) (h1 : i ≤ 512) :
    slut (BitVec.ofNat 10 i) = quarterSine (512 - i) := by
  have hi : (BitVec.ofNat 10 i).toNat = i := Nat.mod_eq_of_lt (by omega)
  rcases slut_cases (BitVec.ofNat 10 i) with ⟨h', e⟩ | ⟨-, -, e⟩ | ⟨h', -, e⟩ | ⟨h', -⟩ <;> rw [hi] at *
  · rw [e, show i = 256 by omega]
  · exact e
  · rw [e, show i = 512 by omega]
    rfl
  · omega

/-- The table is odd (R104): half a turn on, the entry changes its sign. -/
theorem slut_add_half_turn (i : BitVec 10) : slut (i + 512) = -slut i := by
  have hsum : (i + 512).toNat = (i.toNat + 512) % 2 ^ 10 := BitVec.toNat_add _ _
  have hj : (i + 512).extractLsb' 0 8 = i.extractLsb' 0 8 := by
    apply BitVec.eq_of_toNat_eq
    simp only [BitVec.extractLsb'_toNat, hsum, Nat.shiftRight_eq_div_pow]
    omega
  have hq : ((i + 512).extractLsb' 8 2).toNat = ((i.extractLsb' 8 2).toNat + 2) % 4 := by
    simp only [BitVec.extractLsb'_toNat, hsum, Nat.shiftRight_eq_div_pow]
    omega
  have hlt : (i.extractLsb' 8 2).toNat < 4 := BitVec.isLt _
  unfold slut
  rw [hq, hj]
  rcases (by omega : (i.extractLsb' 8 2).toNat = 0 ∨ (i.extractLsb' 8 2).toNat = 1 ∨
    (i.extractLsb' 8 2).toNat = 2 ∨ (i.extractLsb' 8 2).toNat = 3) with h | h | h | h <;> simp [h]

theorem slut_ofNat_add_half_turn (i : ℕ) : slut (BitVec.ofNat 10 (i + 512)) = -slut (BitVec.ofNat 10 i) := by
  rw [BitVec.ofNat_add]
  exact slut_add_half_turn _

/-- Settles O22: two quarters and a half turn, and the distance of each entry from the real sine. -/
theorem fullCycleTableIsTheRoundedSine : Obligations.FullCycleTableIsTheRoundedSine := by
  refine ⟨fun j hj => ?_, fun i => (abs_slut_sub_sineWave_le i).trans_lt (by norm_num), rfl, rfl, rfl, rfl,
    slut_bounds⟩
  have hfirst := slut_of_le_quarter hj.le
  have hsecond : slut (BitVec.ofNat 10 (256 + j)) = quarterSine (256 - j) := by
    rw [slut_of_second_quarter (by omega) (by omega)]
    congr 1
    omega
  refine ⟨hfirst, hsecond, ?_, ?_⟩
  · rw [add_comm, slut_ofNat_add_half_turn, hfirst]
  · rw [show 768 + j = 256 + j + 512 by omega, slut_ofNat_add_half_turn, hsecond]

end Sys2Proof.Proofs

/-! ## The step from one entry of the full cycle to the next -/

namespace Sys2Proof.Proofs
open Sys2Proof.Machine

/-- The `d` of R105 at table index `i`. -/
def slutDiff (i : ℕ) : ℤ := slut (BitVec.ofNat 10 (i + 1)) - slut (BitVec.ofNat 10 i)

theorem slutDiff_of_lt_quarter {i : ℕ} (h : i < 256) : slutDiff i = quarterSine (i + 1) - quarterSine i := by
  rw [slutDiff, slut_of_le_quarter h, slut_of_le_quarter h.le]

/-- The second quarter takes the first one's steps back. -/
theorem slutDiff_reflect {i : ℕ} (h : i < 256) : slutDiff (511 - i) = -slutDiff i := by
  rw [slutDiff_of_lt_quarter h, slutDiff, slut_of_second_quarter (by omega) (by omega),
    slut_of_second_quarter (by omega) (by omega), show 512 - (511 - i + 1) = i by omega,
    show 512 - (511 - i) = i + 1 by omega, neg_sub]

theorem slutDiff_add_half_turn (i : ℕ) : slutDiff (i + 512) = -slutDiff i := by
  rw [slutDiff, add_right_comm, slut_ofNat_add_half_turn, slut_ofNat_add_half_turn, slutDiff]
  ring

/-- Every step of the cycle is as large as one of the first quarter. -/
theorem exists_quarter_slutDiff_natAbs_eq {i : ℕ} (h : i < 1024) :
    ∃ j < 256, (slutDiff i).natAbs = (slutDiff j).natAbs := by
  have half {k : ℕ} (hk : k < 512) : ∃ j < 256, (slutDiff k).natAbs = (slutDiff j).natAbs := by
    rcases lt_or_ge k 256 with hk' | hk'
    · exact ⟨k, hk', rfl⟩
    · have hback := slutDiff_reflect (i := 511 - k) (by omega)
      rw [show 511 - (511 - k) = k by omega] at hback
      exact ⟨511 - k, by omega, by rw [hback, Int.natAbs_neg]⟩
  rcases lt_or_ge i 512 with h' | h'
  · exact half h'
  · rw [← Nat.sub_add_cancel h', slutDiff_add_half_turn, Int.natAbs_neg]
    exact half (by omega)

/-- R105's bound on d, and that no two adjacent entries are the same. -/
theorem slutDiff_natAbs_bounds {i : ℕ} (h : i < 1024) : 1 ≤ (slutDiff i).natAbs ∧ (slutDiff i).natAbs ≤ 201 := by
  obtain ⟨j, hj, e⟩ := exists_quarter_slutDiff_natAbs_eq h
  have := quarterSine_succ_sub_bounds hj
  rw [e, slutDiff_of_lt_quarter hj]
  omega

/-- The sizes of the steps repeat in each quarter of the cycle, the second and the fourth in reverse order. -/
theorem sum_slutDiff_natAbs (g : ℕ → ℕ) :
    ∑ i ∈ Finset.range 1024, g (slutDiff i).natAbs = 4 * ∑ i ∈ Finset.range 256, g (slutDiff i).natAbs := by
  have hquarter : ∑ i ∈ Finset.range 256, g (slutDiff (256 + i)).natAbs =
      ∑ i ∈ Finset.range 256, g (slutDiff i).natAbs := by
    rw [← Finset.sum_range_reflect]
    refine Finset.sum_congr rfl fun i hi => ?_
    have hi := Finset.mem_range.mp hi
    rw [show 256 + (256 - 1 - i) = 511 - i by omega, slutDiff_reflect hi, Int.natAbs_neg]
  have hhalf : ∑ i ∈ Finset.range 512, g (slutDiff (512 + i)).natAbs =
      ∑ i ∈ Finset.range 512, g (slutDiff i).natAbs := by
    simp only [add_comm 512, slutDiff_add_half_turn, Int.natAbs_neg]
  rw [show 1024 = 512 + 512 from rfl, Finset.sum_range_add, hhalf, show 512 = 256 + 256 from rfl,
    Finset.sum_range_add, hquarter]
  ring

end Sys2Proof.Proofs

/-! ## Interpolation by the fields of the phase (R105) -/

namespace Sys2Proof.Proofs
open Sys2Proof.Machine

/-- Interpolation stays in an interval that holds both ends. -/
theorem interpolate_mem_interval {s0 s1 lo hi : ℤ} {f : ℕ} (h0 : lo ≤ s0 ∧ s0 ≤ hi) (h1 : lo ≤ s1 ∧ s1 ≤ hi)
    (hf : f ≤ 4096) : lo ≤ interpolate s0 s1 f ∧ interpolate s0 s1 f ≤ hi := by
  obtain ⟨hlo, hhi⟩ := interpolate_bounds s0 s1 f
  have hf' : (f : ℤ) ≤ 4096 := by exact_mod_cast hf
  have hup : s0 * (4096 - f) + s1 * f ≤ 4096 * hi := by nlinarith
  have hdown : 4096 * lo ≤ s0 * (4096 - f) + s1 * f := by nlinarith
  constructor <;> linarith

@[simp] theorem interpolate_zero (s0 s1 : ℤ) : interpolate s0 s1 0 = s0 := by
  have := interpolate_bounds s0 s1 0
  omega

/-- Rounding a tie upwards is the only way in which interpolation is not odd. -/
theorem interpolate_neg_ne_iff (s0 s1 : ℤ) (f : ℕ) :
    interpolate (-s0) (-s1) f ≠ -interpolate s0 s1 f ↔ (s1 - s0) * f % 4096 = 2048 := by
  have hneg : (-s1 - -s0) * f = -((s1 - s0) * f) := by ring
  unfold interpolate asr
  rw [hneg]
  generalize (s1 - s0) * (f : ℤ) = x
  norm_num
  omega

theorem tableIndex_toNat (acc : Word) : (tableIndex acc).toNat = acc.toNat / 2 ^ 22 := by
  have := acc.isLt
  simp only [tableIndex, BitVec.extractLsb'_toNat, Nat.shiftRight_eq_div_pow]
  omega

theorem tableFraction_toNat (acc : Word) : (tableFraction acc).toNat = acc.toNat / 2 ^ 10 % 2 ^ 12 := by
  simp only [tableFraction, BitVec.extractLsb'_toNat, Nat.shiftRight_eq_div_pow]

/-- SINE at a phase written by its fields: acc[9:0] has no effect. -/
theorem sine_of_fields {i f low : ℕ} (hf : f < 4096) (hlow : low < 1024) :
    sine (BitVec.ofNat 32 (i * 2 ^ 22 + f * 2 ^ 10 + low)) =
      interpolate (slut (BitVec.ofNat 10 i)) (slut (BitVec.ofNat 10 (i + 1))) f := by
  have hindex : tableIndex (BitVec.ofNat 32 (i * 2 ^ 22 + f * 2 ^ 10 + low)) = BitVec.ofNat 10 i := by
    apply BitVec.eq_of_toNat_eq
    rw [tableIndex_toNat, BitVec.toNat_ofNat, BitVec.toNat_ofNat]
    omega
  have hfraction : (tableFraction (BitVec.ofNat 32 (i * 2 ^ 22 + f * 2 ^ 10 + low))).toNat = f := by
    rw [tableFraction_toNat, BitVec.toNat_ofNat]
    omega
  have hnext : BitVec.ofNat 10 (i + 1) = BitVec.ofNat 10 i + 1 := BitVec.ofNat_add i 1
  rw [sine, hindex, hfraction, hnext]
/-- Half a turn on, SINE interpolates the same entries with their signs changed. -/
theorem sine_of_fields_add_half_turn {i f low : ℕ} (hf : f < 4096) (hlow : low < 1024) :
    sine (BitVec.ofNat 32 (i * 2 ^ 22 + f * 2 ^ 10 + low) + 0x80000000) =
      interpolate (-slut (BitVec.ofNat 10 i)) (-slut (BitVec.ofNat 10 (i + 1))) f := by
  have hphase : BitVec.ofNat 32 (i * 2 ^ 22 + f * 2 ^ 10 + low) + 0x80000000 =
      BitVec.ofNat 32 ((i + 512) * 2 ^ 22 + f * 2 ^ 10 + low) := by
    rw [show (i + 512) * 2 ^ 22 + f * 2 ^ 10 + low = i * 2 ^ 22 + f * 2 ^ 10 + low + 0x80000000 by ring]
    exact (BitVec.ofNat_add _ _).symm
  rw [hphase, sine_of_fields hf hlow, add_right_comm, slut_ofNat_add_half_turn, slut_ofNat_add_half_turn]

/-- SINE is not odd exactly at the ties of its rounding. -/
theorem sine_add_half_turn_ne_iff {i f low : ℕ} (hf : f < 4096) (hlow : low < 1024) :
    sine (BitVec.ofNat 32 (i * 2 ^ 22 + f * 2 ^ 10 + low) + 0x80000000) ≠
      -sine (BitVec.ofNat 32 (i * 2 ^ 22 + f * 2 ^ 10 + low)) ↔ slutDiff i * f % 4096 = 2048 := by
  rw [sine_of_fields_add_half_turn hf hlow, sine_of_fields hf hlow]
  exact interpolate_neg_ne_iff _ _ _

/-- Settles O23: each bound is one of `interpolate`, whose ends are adjacent entries of the table. -/
theorem sineInterpolatesAdjacentEntries : Obligations.SineInterpolatesAdjacentEntries := by
  refine ⟨fun i f low hi hf hlow => ?_, by decide, by decide⟩
  have hnext : BitVec.ofNat 10 ((i + 1) % 1024) = BitVec.ofNat 10 (i + 1) :=
    BitVec.eq_of_toNat_eq (by simp)
  have hdiff := (slutDiff_natAbs_bounds hi).2
  have hodd := sine_add_half_turn_ne_iff (i := i) hf hlow
  simp only [hnext]
  rw [sine_of_fields hf hlow] at hodd ⊢
  rw [slutDiff] at hdiff hodd
  set s0 := slut (BitVec.ofNat 10 i)
  set s1 := slut (BitVec.ofNat 10 (i + 1))
  obtain ⟨hlo, hhi⟩ := interpolate_bounds s0 s1 f
  obtain ⟨hmin, hmax⟩ := interpolate_mem_interval (s0 := s0) (s1 := s1) ⟨min_le_left .., le_max_left ..⟩
    ⟨min_le_right .., le_max_right ..⟩ hf.le
  obtain ⟨hrange0, hrange1⟩ := interpolate_mem_interval (s0 := s0) (s1 := s1) (slut_bounds _) (slut_bounds _) hf.le
  have hstep : |s1 - s0| ≤ 201 := by
    rw [← Int.natCast_natAbs]
    exact_mod_cast hdiff
  refine ⟨hstep, by linarith, by linarith, hmin, hmax, hrange0, hrange1, ?_, hodd⟩
  rintro rfl
  exact interpolate_zero s0 s1

end Sys2Proof.Proofs

/-! ## Counting the ties of SINE's rounding (R105) -/

namespace Sys2Proof.Proofs
open Sys2Proof.Machine

/-- A step `g·u`, `u` odd and coprime to `2·h`, has its ties (half of the modulus `2·g·h`) where `f` is `h` modulo `2·h`:
`g` cancels, and so does `u`, since `u·h` is again `h` modulo `2·h`. -/
theorem mul_modEq_half_iff {g u h : ℕ} (hg : g ≠ 0) (hu : Odd u) (hco : Nat.Coprime (2 * h) u) (f : ℕ) :
    g * u * f ≡ g * h [MOD g * (2 * h)] ↔ f ≡ h [MOD 2 * h] := by
  have hhalf : u * h ≡ h [MOD 2 * h] := by
    obtain ⟨v, rfl⟩ := hu
    rw [show (2 * v + 1) * h = h + 2 * h * v by ring]
    exact Nat.add_modEq_left_iff.mpr (dvd_mul_right _ _)
  rw [mul_assoc, Nat.ModEq.mul_left_cancel_iff' hg]
  exact ⟨fun hf => Nat.ModEq.cancel_left_of_coprime hco (hf.trans hhalf.symm), fun hf => (hf.mul_left u).trans hhalf⟩

/-- A step of size `d` has as many ties among the 4096 fractions as the power of two in `d`. -/
theorem card_ties {d : ℕ} (h0 : d ≠ 0) (h1 : d < 4096) :
    ((Finset.range 4096).filter fun f => d * f ≡ 2048 [MOD 4096]).card = Nat.gcd d 4096 := by
  obtain ⟨k, u, hu, rfl⟩ := Nat.exists_eq_two_pow_mul_odd h0
  have hk : k < 12 := by
    refine (Nat.pow_lt_pow_iff_right (a := 2) (by norm_num)).mp (lt_of_le_of_lt ?_ h1)
    exact Nat.le_mul_of_pos_right _ hu.pos
  obtain ⟨m, hm⟩ := Nat.exists_eq_add_of_le (Nat.le_of_lt_succ hk)
  have hhalf : 2048 = 2 ^ k * 2 ^ m := by rw [← pow_add, ← hm]; norm_num
  have hfull : 4096 = 2 ^ k * (2 * 2 ^ m) := by rw [mul_left_comm, ← hhalf]; rfl
  have hco : Nat.Coprime (2 * 2 ^ m) u := by
    rw [← pow_succ']
    exact (Nat.coprime_two_left.mpr hu).pow_left _
  have hcount : ((Finset.range 4096).filter fun f => f ≡ 2 ^ m [MOD 2 * 2 ^ m]).card = 2 ^ k := by
    rw [← Nat.count_eq_card_filter_range, Nat.count_modEq_card _ (by positivity), hfull, Nat.mul_mod_left,
      if_neg (Nat.not_lt_zero _), add_zero, Nat.mul_div_cancel _ (by positivity)]
  have hgcd : Nat.gcd (2 ^ k * u) 4096 = 2 ^ k := by
    rw [hfull, Nat.gcd_mul_left, hco.symm, mul_one]
  rw [hgcd, ← hcount]
  refine congrArg Finset.card (Finset.filter_congr fun f _ => ?_)
  rw [hcount, hhalf, hfull]
  exact mul_modEq_half_iff (by positivity) hu hco f

/-- The sign of a step does not matter to its ties. -/
theorem tie_iff_natAbs (d : ℤ) (f : ℕ) : d * f % 4096 = 2048 ↔ d.natAbs * f ≡ 2048 [MOD 4096] := by
  rw [Nat.ModEq, ← Int.natAbs_natCast f, ← Int.natAbs_mul, Int.natAbs_natCast]
  omega

/-- The greatest common divisors with 4096 of a quarter's steps add up to 831. -/
theorem sum_gcd_quarter : ∑ i ∈ Finset.range 256, Nat.gcd (slutDiff i).natAbs 4096 = 831 := by
  have hrows : ∑ r ∈ Finset.range 16, ∑ c ∈ Finset.range 16,
      Nat.gcd (quarterSine (16 * r + c + 1) - quarterSine (16 * r + c)).natAbs 4096 = 831 := by decide
  rw [← hrows, ← sum_range_mul (fun k => Nat.gcd (quarterSine (k + 1) - quarterSine k).natAbs 4096)]
  exact Finset.sum_congr rfl fun i hi => by rw [slutDiff_of_lt_quarter (Finset.mem_range.mp hi)]

/-- Settles O24: the ties of each table step, added up over the cycle. -/
theorem sineOddnessFailsAt3324Phases : Obligations.SineOddnessFailsAt3324Phases := by
  unfold Obligations.SineOddnessFailsAt3324Phases
  rw [Finset.card_filter, show 2 ^ 22 = 1024 * 4096 by norm_num, sum_range_mul]
  have hrow (i : ℕ) (hi : i ∈ Finset.range 1024) :
      (∑ f ∈ Finset.range 4096, if sine (BitVec.ofNat 32 ((4096 * i + f) * 1024) + 0x80000000) ≠
        -sine (BitVec.ofNat 32 ((4096 * i + f) * 1024)) then 1 else 0) = Nat.gcd (slutDiff i).natAbs 4096 := by
    obtain ⟨hpos, hle⟩ := slutDiff_natAbs_bounds (Finset.mem_range.mp hi)
    rw [← Finset.card_filter, ← card_ties (by omega) (by omega)]
    refine congrArg Finset.card (Finset.filter_congr fun f hf => ?_)
    have hphase : (4096 * i + f) * 1024 = i * 2 ^ 22 + f * 2 ^ 10 + 0 := by ring
    rw [hphase, sine_add_half_turn_ne_iff (Finset.mem_range.mp hf) (by norm_num), tie_iff_natAbs]
  rw [Finset.sum_congr rfl hrow, sum_slutDiff_natAbs (Nat.gcd · 4096), sum_gcd_quarter]

/-- Settles O30: the bound on `sine` against `sineWave`, in the angle of R2. -/
theorem sineTracksTheRealSine : Obligations.SineTracksTheRealSine := by
  intro acc
  rw [← sineWave_of_phase]
  exact abs_sine_sub_sineWave_le acc

end Sys2Proof.Proofs

/-! ## The words of the register space (R74, R151 to R160)

What a READ makes of each register and what a WRITE makes of its data word, as numbers and as bits. -/

namespace Sys2Proof.Proofs
open Sys2Proof.Machine

/-- Zero extension adds zero bits. -/
theorem getLsbD_setWidth_of_le {m n k : ℕ} (x : BitVec m) (h : m ≤ k) : (x.setWidth n).getLsbD k = false := by
  rw [BitVec.getLsbD_setWidth, BitVec.getLsbD_of_ge x k h, Bool.and_false]

/-- CTRL reads as the number SHAPE is (R151). -/
theorem ctrlWord_toNat (shape : BitVec 1) : (ctrlWord shape).toNat = shape.toNat :=
  BitVec.toNat_setWidth_of_le (by decide)

/-- BLEND reads as the number it is (R153). -/
theorem blendWord_toNat (blend : BlendCode) : (blendWord blend).toNat = blend.toNat :=
  BitVec.toNat_setWidth_of_le (by decide)

/-- OUT reads as the signed number it is (R155). -/
theorem outWord_toInt (out : Sample) : (outWord out).toInt = out.toInt :=
  BitVec.toInt_signExtend_of_le (by decide)

/-- The word OUT reads as is the one of its value. -/
theorem outWord_eq_of_toInt {out : Sample} {w : Word} (h : out.toInt = w.toInt) : outWord out = w :=
  BitVec.eq_of_toInt_eq ((outWord_toInt out).trans h)

/-- A negative sample reads with its upper half all 1 (R155). -/
theorem getLsbD_outWord_of_neg {out : Sample} (h : out.toInt < 0) {k : ℕ} (hlo : 16 ≤ k) (hhi : k < 32) :
    (outWord out).getLsbD k = true := by
  have hsign : out.msb = true := by rw [BitVec.msb_eq_toInt, decide_eq_true h]
  rw [outWord, BitVec.getLsbD_signExtend, if_neg (Nat.not_lt.mpr hlo), hsign, decide_eq_true hhi, Bool.and_true]

/-- A WRITE to CTRL keeps bit 0 of its data (R158). -/
theorem shapeOperand_toNat (w : Word) : (shapeOperand w).toNat = w.toNat % 2 := by
  simp [shapeOperand]

/-- Bit 0 of the data selects the triangle. -/
theorem shapeOperand_eq_zero_iff (w : Word) : shapeOperand w = 0 ↔ w.toNat % 2 = 0 := by
  rw [← BitVec.toNat_inj, shapeOperand_toNat]
  rfl

/-- The clamp of R160 written out, in naturals. -/
theorem blendOperand_toNat_eq (w : Word) : (blendOperand w).toNat = (min (max w.toInt 0) 65536).toNat := by
  rw [← clamp, ← blendOperand_toNat, Int.toNat_natCast]

/-- A WRITE leaves no blend code above 65536 (R23, R160). -/
theorem blendOperand_toNat_le (w : Word) : (blendOperand w).toNat ≤ 65536 := by
  rw [blendOperand_toNat_eq]
  omega

end Sys2Proof.Proofs

/-! ## READ after WRITE at one register address and at another (R150, R157) -/

namespace Sys2Proof.Proofs
open Sys2Proof.Machine

/-- A register address is one of the five registers' or reserved (R33 to R38). -/
theorem regAddr_cases (a : RegAddr) : a = 0 ∨ a = 1 ∨ a = 2 ∨ a = 3 ∨ a = 4 ∨ 5 ≤ a.toNat := by
  revert a
  decide

/-- A register write is read at no other address. -/
theorem regRead_regWrite_of_ne {a b : RegAddr} (h : b ≠ a) (w : Word) (s : State) :
    regRead b (regWrite a w s) = regRead b s := by
  obtain ⟨hacc, hinc, hblend, hshape⟩ := regWrite_frame a w s
  rcases regAddr_cases b with rfl | rfl | rfl | rfl | rfl | hb
  · exact congrArg ctrlWord (hshape h.symm)
  · exact hinc h.symm
  · exact congrArg blendWord (hblend h.symm)
  · exact hacc h.symm
  · exact congrArg outWord (regWrite_out a w s)
  · rw [regRead_reserved b _ hb, regRead_reserved b _ hb]

/-- The strobes are no part of the register map. -/
@[simp] theorem regRead_writeCommand (a b : RegAddr) (w : Word) (s : State) :
    regRead b (writeCommand a w s) = regRead b (regWrite a w s) :=
  regRead_congr rfl rfl rfl rfl rfl b

/-- A WRITE to OUT or to a reserved address is a NOP (R162, R163). -/
theorem writeCommand_ignored {a : RegAddr} (h : 4 ≤ a.toNat) (w : Word) (s : State) :
    writeCommand a w s = nopCommand s := by
  rw [writeCommand, regWrite_ignored a w s h, nopCommand]

/-- Of two WRITEs to one register the last stands (R157). -/
theorem writeCommand_writeCommand (a : RegAddr) (w w' : Word) (s : State) :
    writeCommand a w' (writeCommand a w s) = writeCommand a w' s := by
  rcases regWrite_cases a w s with ⟨rfl, -⟩ | ⟨rfl, -⟩ | ⟨rfl, -⟩ | ⟨rfl, -⟩ | ⟨ha, -⟩
  case inr.inr.inr.inr =>
    simp only [writeCommand_ignored ha]
    rfl
  all_goals rfl

/-- A READ of a reserved address gives 0 (R156). -/
theorem readCommand_reserved {a : RegAddr} (h : 5 ≤ a.toNat) (s : State) :
    readCommand a s = { s with rdata := 0, rdv := true, outv := false } := by
  rw [readCommand_eq, regRead_reserved a s h]

/-- Settles O33: a READ gives `regRead` of its address, and a WRITE or a STEP before it decides that word. -/
theorem readReturnsTheAddressedRegister : Obligations.ReadReturnsTheAddressedRegister := by
  refine ⟨exec_readWord, regRead_reserved, fun a w w' s t u hwrite hread => ?_, fun s t hstep => ?_,
    fun a w s rest hport => ?_, fun s hinc => ⟨_, exec_readWord 1 0 s, hinc, rfl⟩⟩
  · rw [exec_writeWord] at hwrite
    obtain rfl := Host.Outcome.next.inj hwrite
    rw [exec_readWord] at hread
    obtain rfl := Host.Outcome.next.inj hread
    refine ⟨?_, ?_, ?_, ?_, ?_, fun ha => regRead_reserved a _ ha⟩
    all_goals rintro rfl
    · exact (ctrlWord_toNat _).trans (shapeOperand_toNat w)
    · rfl
    · exact (congrArg Nat.cast (blendWord_toNat _)).trans (blendOperand_toNat w)
    · rfl
    · exact outWord_toInt s.out
  · obtain rfl := Host.Outcome.next.inj hstep
    exact ⟨⟨_, exec_decodeRead 3 _, stepCommand_acc s⟩, ⟨_, exec_decodeRead 4 _, outWord_toInt _⟩⟩
  · exact ⟨_, step_readWord hport, regRead_setPort a s rest, rfl⟩

/-- Settles O40: a WRITE is `regWrite` and the strobes, and `regWrite` stores its word where one register reads it. -/
theorem writeChangesOnlyItsTarget : Obligations.WriteChangesOnlyItsTarget := by
  refine ⟨fun a w s => ⟨writeCommand a w s, exec_writeWord a w s, writeCommand_eq a w s, regWrite_out a w s,
    regWrite_rdata a w s, regWrite_port a w s, fun b hb => ?_, fun ha => writeCommand_ignored ha w s⟩,
    fun a w w' s t u hfirst hlast => ?_, exec_writeWord 1 0x40000000⟩
  · rw [regRead_writeCommand, regRead_regWrite_of_ne hb]
  · rw [exec_writeWord] at hfirst
    obtain rfl := Host.Outcome.next.inj hfirst
    rwa [exec_writeWord, writeCommand_writeCommand, ← exec_writeWord] at hlast

end Sys2Proof.Proofs

/-! ## The READ rows (R151 to R156) -/

namespace Sys2Proof.Proofs
open Sys2Proof.Machine

/-- A well-formed command of the rows 0x6 to 0x7 has a reserved address. -/
theorem reserved_of_addrIn6To7 {a : RegAddr} (h : addrIn6To7 a = true) : 5 ≤ a.toNat := by
  revert a
  decide

/-- A well-formed command of the rows 0x8 to 0xF has a reserved address. -/
theorem reserved_of_addrIn8To15 {a : RegAddr} (h : addrIn8To15 a = true) : 5 ≤ a.toNat := by
  revert a
  decide

/-- The row of each reserved READ address (R75). -/
theorem decodeRead_of_reserved {a : RegAddr} (h : 5 ≤ a.toNat) :
    decodeRead a = if a.toNat = 5 then .rdRsvd5 else if a.toNat ≤ 7 then .rdRsvd6_7 a else .rdRsvd8_15 a := by
  revert a
  decide

/-- SETFREQ 440 at 44100 is one WRITE (R79). -/
theorem setFreq_440_expandsTo_iff (is : List Instr) :
    (Pseudo.setFreq 440).expandsTo 44100 is ↔ is = [.wrInc 0x028DDFB9] := by
  rw [setFreq_expandsTo_iff (by norm_num), phaseWord_440]

/-- The sample a STEP leaves, with the second waveform written out (R100, R108). -/
theorem stepCommand_out_toInt_eq_mix {s : State} (h : s.blend.toNat ≤ 65536) :
    (stepCommand s).out.toInt = mix (sine (s.acc + s.inc))
      (if s.shape = 0 then triangle (s.acc + s.inc) else saw (s.acc + s.inc)) s.blend.toNat := by
  rw [stepCommand_out_toInt h, stepCommand_acc, blendedSample_eq]

/-- Settles O34: zero extension keeps SHAPE and adds nothing, and a WRITE before the READ decides SHAPE. -/
theorem rdCtrlReturnsShape : Obligations.RdCtrlReturnsShape := by
  refine ⟨fun s => ⟨readCommand 0 s, rfl, readCommand_eq 0 s, ctrlWord_toNat s.shape, ?_⟩,
    decode_makeCommandWord 1 0, rfl, fun s t hwrite => ?_, ⟨_, rfl, rfl⟩⟩
  · exact fun k hk => getLsbD_setWidth_of_le s.shape hk
  · obtain rfl : writeCommand 0 0xFFFFFFFF s = t := Host.Outcome.next.inj hwrite
    exact ⟨_, rfl, rfl⟩

/-- Settles O35: INC is read as it stands, and a WRITE puts its whole word there. -/
theorem rdIncReturnsInc : Obligations.RdIncReturnsInc := by
  refine ⟨exec_decodeRead 1, decode_makeCommandWord 1 1, rfl, fun s t w hwrite => ?_, fun s t is hexpand => ?_⟩
  · obtain rfl : writeCommand 1 w s = t := Host.Outcome.next.inj hwrite
    exact ⟨_, rfl, rfl⟩
  · refine ⟨_, (setFreq_440_expandsTo_iff is).mp hexpand, fun hwrite => ?_⟩
    obtain rfl : writeCommand 1 0x028DDFB9 s = t := Host.Outcome.next.inj hwrite
    exact ⟨_, rfl, rfl⟩

/-- Settles O36: zero extension keeps BLEND and adds nothing, and a WRITE before the READ has clamped it. -/
theorem rdBlendReturnsTheBlendCode : Obligations.RdBlendReturnsTheBlendCode := by
  refine ⟨fun s => ⟨readCommand 2 s, rfl, readCommand_eq 2 s, blendWord_toNat s.blend, ?_, ?_⟩,
    decode_makeCommandWord 1 2, rfl, fun s t hwrite => ?_, fun s t hwrite => ?_⟩
  · exact fun k hk => getLsbD_setWidth_of_le s.blend hk
  · exact fun hlegal => (blendWord_toNat s.blend).trans_le hlegal
  · obtain rfl : writeCommand 2 0x00030000 s = t := Host.Outcome.next.inj hwrite
    exact ⟨_, rfl, rfl⟩
  · obtain rfl : writeCommand 2 0x8000 s = t := Host.Outcome.next.inj hwrite
    exact ⟨_, rfl, rfl⟩

/-- Settles O37: a STEP leaves in ACC the phase its sample is blended at. -/
theorem rdPhaseReturnsThePhase : Obligations.RdPhaseReturnsThePhase := by
  refine ⟨exec_decodeRead 3, decode_makeCommandWord 1 3, rfl, fun s t hlegal hstep => ?_, fun s t w hwrite => ?_,
    fun t u hwrite hstep => ?_⟩
  · obtain rfl : stepCommand s = t := Host.Outcome.next.inj hstep
    exact ⟨_, exec_decodeRead 3 _, stepCommand_out_toInt_eq_mix hlegal⟩
  · obtain rfl : writeCommand 3 w s = t := Host.Outcome.next.inj hwrite
    exact ⟨_, rfl, rfl⟩
  · obtain rfl : writeCommand 1 0x40000000 State.reset = t := Host.Outcome.next.inj hwrite
    obtain rfl : stepCommand _ = u := Host.Outcome.next.inj hstep
    exact ⟨_, exec_decodeRead 3 _, stepCommand_acc _⟩

/-- Settles O38: sign extension keeps the value, and the value decides the word. -/
theorem rdOutReturnsTheSampleSignExtended : Obligations.RdOutReturnsTheSampleSignExtended := by
  refine ⟨fun s => ⟨readCommand 4 s, rfl, readCommand_eq 4 s, outWord_toInt s.out, ?_⟩,
    decode_makeCommandWord 1 4, rfl, fun s hout => ?_, fun s t _ hout => ?_⟩
  · exact fun hneg k hlo hhi => getLsbD_outWord_of_neg hneg hlo hhi
  · exact ⟨_, exec_decodeRead 4 s, outWord_eq_of_toInt hout⟩
  · exact ⟨_, exec_decodeRead 4 t, outWord_eq_of_toInt hout⟩

/-- Settles O39: the three rows READ a reserved address each. -/
theorem reservedReadReturnsZero : Obligations.ReservedReadReturnsZero := by
  refine ⟨fun s => ?_, fun s a hwf => ?_, fun s a hwf => ?_, fun a w ha => ?_,
    fun s => ⟨_, exec_readWord 9 0 s, rfl, rfl⟩⟩
  · exact congrArg Host.Outcome.next (readCommand_reserved (a := 5) (by decide) s)
  · exact congrArg Host.Outcome.next (readCommand_reserved (reserved_of_addrIn6To7 hwf) s)
  · exact congrArg Host.Outcome.next (readCommand_reserved (reserved_of_addrIn8To15 hwf) s)
  · exact (decode_makeCommandWord ..).trans (decodeRead_of_reserved ha)

end Sys2Proof.Proofs

/-! ## The WRITE rows (R158 to R163) -/

namespace Sys2Proof.Proofs
open Sys2Proof.Machine

/-- The row of each reserved WRITE address (R75). -/
theorem decodeWrite_of_reserved {a : RegAddr} (h : 5 ≤ a.toNat) (w : Word) :
    decodeWrite a w =
      if a.toNat = 5 then .wrRsvd5 w else if a.toNat ≤ 7 then .wrRsvd6_7 a w else .wrRsvd8_15 a w := by
  grind [decodeWrite]

/-- SETBLEND of 1/4 is the code 16384 (R79). -/
theorem blendFactorWord_quarter : blendFactorWord (1 / 4) = 16384 := by
  have hcode : (1 / 4 : ℝ) * 65536 = (16384 : ℤ) := by norm_num
  rw [blendFactorWord, hcode, round_intCast]
  rfl

/-- The first STEP after a WRITE to CTRL blends with the waveform the new bit selects (R158). -/
theorem stepCommand_writeCtrl_out_toInt {s : State} (h : s.blend.toNat ≤ 65536) (w : Word) :
    (stepCommand (writeCommand 0 w s)).out.toInt = mix (sine (s.acc + s.inc))
      (if w.toNat % 2 = 0 then triangle (s.acc + s.inc) else saw (s.acc + s.inc)) s.blend.toNat := by
  have hsample := stepCommand_out_toInt_eq_mix (s := writeCommand 0 w s) h
  have hshape : (writeCommand 0 w s).shape = shapeOperand w := rfl
  simp only [hshape, shapeOperand_eq_zero_iff] at hsample
  exact hsample

/-- Settles O41: bit 0 is all that is stored, and a STEP after it is one from the new SHAPE. -/
theorem wrCtrlSetsShapeFromBitZero : Obligations.WrCtrlSetsShapeFromBitZero := by
  refine ⟨fun s w => ⟨writeCommand 0 w s, rfl, writeCommand_eq 0 w s, shapeOperand_toNat w⟩,
    decode_makeCommandWord 2 0, fun s => ⟨_, rfl, rfl⟩, fun s w hlegal => ?_, fun s => ⟨_, rfl, rfl⟩⟩
  exact ⟨writeCommand 0 w s, _, rfl, rfl, rfl, exec_step _, stepCommand_writeCtrl_out_toInt hlegal w⟩

/-- The phase of the first STEP after a WRITE to INC (R159, R164). -/
theorem stepCommand_writeInc_acc (w : Word) (s : State) : (stepCommand (writeCommand 1 w s)).acc = s.acc + w := rfl

/-- Adding a word is adding its number less one turn, modulo a turn (R101, R159). -/
theorem add_toNat_eq_sub_turn (a w : Word) : ((a + w).toNat : ℤ) = (a.toNat + (w.toNat - 2 ^ 32 : ℤ)) % 2 ^ 32 := by
  rw [BitVec.toNat_add]
  omega

/-- Settles O42: the next STEP adds the stored word, and a word above 2^31 is also a step back. -/
theorem wrIncStoresEveryValue : Obligations.WrIncStoresEveryValue := by
  refine ⟨fun s w => exec_decodeWrite 1 w s, decode_makeCommandWord 2 1, fun s t hwrite => ?_, fun s t hwrite => ?_,
    fun s t w _ hwrite => ?_, (setFreq_440_expandsTo_iff _).mpr rfl⟩
  · obtain rfl : writeCommand 1 0 s = t := Host.Outcome.next.inj hwrite
    exact ⟨_, exec_step _, (stepCommand_writeInc_acc 0 s).trans (BitVec.add_zero s.acc)⟩
  · obtain rfl : writeCommand 1 0x80000000 s = t := Host.Outcome.next.inj hwrite
    exact ⟨_, exec_step _, stepCommand_writeInc_acc 0x80000000 s⟩
  · obtain rfl : writeCommand 1 w s = t := Host.Outcome.next.inj hwrite
    exact ⟨_, exec_step _, add_toNat_eq_sub_turn s.acc w⟩

/-- The eight corner cases of R160. -/
theorem blendOperand_corner_cases {w : Word} {v : BlendCode}
    (h : (w, v) ∈ [((0x00000000 : Word), (0 : BlendCode)), (0x00008000, 0x08000), (0x0000FFFF, 0x0FFFF),
      (0x00010000, 0x10000), (0x00010001, 0x10000), (0x7FFFFFFF, 0x10000), (0x80000000, 0), (0xFFFFFFFF, 0)]) :
    blendOperand w = v := by
  simp only [List.mem_cons, Prod.mk.injEq, List.not_mem_nil, or_false] at h
  rcases h with ⟨rfl, rfl⟩ | ⟨rfl, rfl⟩ | ⟨rfl, rfl⟩ | ⟨rfl, rfl⟩ | ⟨rfl, rfl⟩ | ⟨rfl, rfl⟩ | ⟨rfl, rfl⟩ |
    ⟨rfl, rfl⟩
  all_goals rfl

/-- Settles O43: what is stored is `blendOperand` of the data, the clamp of R160. -/
theorem wrBlendClampsTheSignedWord : Obligations.WrBlendClampsTheSignedWord := by
  refine ⟨fun s w => ⟨writeCommand 2 w s, rfl, writeCommand_eq 2 w s, blendOperand_toNat w⟩,
    decode_makeCommandWord 2 2, fun s w v hcase => ?_, fun fs => ⟨16384, ?_, rfl, fun s => ⟨_, rfl, rfl⟩⟩⟩
  · rw [← blendOperand_corner_cases hcase]
    exact exec_decodeWrite 2 w s
  · rw [setBlend_expandsTo_iff, blendFactorWord_quarter]
    norm_num

/-- Settles O44: a STEP after the WRITE is one from the new phase. -/
theorem wrPhaseSetsTheAccumulator : Obligations.WrPhaseSetsTheAccumulator := by
  refine ⟨fun s w => exec_decodeWrite 3 w s, decode_makeCommandWord 2 3, fun s t w hlegal hwrite => ?_, fun fs => rfl,
    fun s t hwrite => ?_⟩
  · obtain rfl : writeCommand 3 w s = t := Host.Outcome.next.inj hwrite
    exact ⟨rfl, _, exec_step _, stepCommand_acc _, stepCommand_out_toInt_eq_mix (s := writeCommand 3 w s) hlegal⟩
  · obtain rfl : writeCommand 3 0x70000000 s = t := Host.Outcome.next.inj hwrite
    exact ⟨_, rfl, rfl⟩

/-- Settles O45: OUT's address is one no register write reaches. -/
theorem wrOutIsIgnored : Obligations.WrOutIsIgnored := by
  refine ⟨fun s w => ?_, decode_makeCommandWord 2 4, fun s t hwrite => ?_⟩
  · exact congrArg Host.Outcome.next (writeCommand_ignored (a := 4) (by decide) w s)
  · obtain rfl : writeCommand 4 0x1234 s = t := Host.Outcome.next.inj hwrite
    exact ⟨_, exec_decodeRead 4 _, outWord_toInt s.out⟩

/-- Settles O46: the three rows WRITE a reserved address each. -/
theorem reservedWriteIsIgnored : Obligations.ReservedWriteIsIgnored := by
  have hignored {a : RegAddr} (ha : 5 ≤ a.toNat) (w : Word) (s : State) : writeCommand a w s = nopCommand s :=
    writeCommand_ignored (Nat.le_of_succ_le ha) w s
  refine ⟨fun s w => ?_, fun s a w hwf => ?_, fun s a w hwf => ?_, fun a w ha => ?_, fun s t a w w' ha _ => ?_,
    fun s => ?_⟩
  · exact congrArg Host.Outcome.next (hignored (a := 5) (by decide) w s)
  · exact congrArg Host.Outcome.next (hignored (reserved_of_addrIn6To7 hwf) w s)
  · exact congrArg Host.Outcome.next (hignored (reserved_of_addrIn8To15 hwf) w s)
  · exact (decode_makeCommandWord ..).trans (decodeWrite_of_reserved ha w)
  · exact ⟨_, exec_readWord a w' t, regRead_reserved a t ha⟩
  · exact (exec_writeWord 7 5 s).trans (congrArg Host.Outcome.next (hignored (by decide) 5 s))

end Sys2Proof.Proofs

/-! ## Changed parameters in the next STEP (R164, R165) -/

namespace Sys2Proof.Proofs
open Sys2Proof.Machine

/-- Settles O47: the phase changes by a WRITE to PHASE, and by a WRITE to INC only through the next STEP. -/
theorem frequencyChangeKeepsThePhase : Obligations.FrequencyChangeKeepsThePhase :=
  ⟨fun s w => ⟨writeCommand 1 w s, _, rfl, rfl, exec_step _, stepCommand_writeInc_acc w s⟩,
    fun s w => ⟨writeCommand 3 w s, rfl, rfl⟩⟩

/-- Settles O48: INC is the new word, BLEND its clamp, which is legal, and the last WRITE is the one to CTRL. -/
theorem newParametersTakeFullEffectAtOnce : Obligations.NewParametersTakeFullEffectAtOnce := by
  intro s i b c
  refine ⟨writeCommand 1 i s, writeCommand 2 b (writeCommand 1 i s),
    writeCommand 0 c (writeCommand 2 b (writeCommand 1 i s)), _, rfl, rfl, rfl, exec_step _, stepCommand_acc _, ?_⟩
  rw [← blendOperand_toNat_eq]
  exact stepCommand_writeCtrl_out_toInt (s := writeCommand 2 b (writeCommand 1 i s)) (blendOperand_toNat_le b) c

end Sys2Proof.Proofs

/-! ## No fault and no refusal (R190) -/

namespace Sys2Proof.Proofs
open Sys2Proof.Machine

/-- None of the four operations of R72 stops, and none touches the cycles still to come (R190). -/
theorem exec_eq_next (i : Instr) (s : State) : ∃ t, exec i s = .next t ∧ t.port = s.port := by
  rcases exec_forms i s with hnop | ⟨a, hread⟩ | ⟨a, w, hwrite⟩ | hstep
  · exact ⟨_, hnop, nopCommand_port s⟩
  · exact ⟨_, hread, readCommand_port a s⟩
  · exact ⟨_, hwrite, (writeCommand_port a w s).trans (regWrite_port a w s)⟩
  · exact ⟨_, hstep, stepCommand_port s⟩

/-- Settles O13: a command is one of the four operations, and sampled cycles run as `applyInputs` of them. -/
theorem nothingTrapsHaltsStallsOrRefuses : Obligations.NothingTrapsHaltsStallsOrRefuses :=
  ⟨exec_eq_next, fun _ _ _ hport => ⟨_, runCycles_of_port_append hport, State.setPort_port ..⟩⟩

end Sys2Proof.Proofs

/-! ## The instances of a platform (R196) -/

namespace Sys2Proof.Proofs
open Sys2Proof.Machine

/-- A cycle of one instance answers exactly when that instance's own cycle does, and replaces that one alone. -/
theorem stepInstance_eq_next_iff {p q : Platform} {k : Fin p.length} :
    p.stepInstance k = .next q ↔ ∃ t, step p[k] = .next t ∧ q = p.set k t := by
  unfold Platform.stepInstance
  cases step p[k] with
  | next t => simp [eq_comm]
  | fault r => simp
  | refused r => simp

/-- Settles O57: the next platform is the old one with one entry replaced, and replacing two entries commutes. -/
theorem instancesDoNotObserveEachOther : Obligations.InstancesDoNotObserveEachOther := by
  refine ⟨fun p q k hstep => ?_, fun p p' k k' q hsame hstep => ?_, fun p q r j k hj hk hk' hne hfirst hsecond => ?_⟩
  · obtain ⟨t, ht, rfl⟩ := stepInstance_eq_next_iff.mp hstep
    exact ⟨List.length_set, fun j hj => List.getElem?_set_ne hj.symm, t, ht, List.getElem?_set_self k.isLt⟩
  · obtain ⟨t, ht, rfl⟩ := stepInstance_eq_next_iff.mp hstep
    refine ⟨p'.set k' t, stepInstance_eq_next_iff.mpr ⟨t, hsame ▸ ht, rfl⟩, ?_⟩
    rw [List.getElem?_set_self k'.isLt, List.getElem?_set_self k.isLt]
  · obtain ⟨t, ht, rfl⟩ := stepInstance_eq_next_iff.mp hfirst
    obtain ⟨u, hu, rfl⟩ := stepInstance_eq_next_iff.mp hsecond
    have hj' : j < (p.set k u).length := hj.trans_eq List.length_set.symm
    have hkeptK : (p.set j t)[k] = p[k] := List.getElem_set_ne hne hk'
    have hkeptJ : (p.set k u)[j] = p[j] := List.getElem_set_ne hne.symm hj'
    exact ⟨p.set k u, hj', stepInstance_eq_next_iff.mpr ⟨u, (congrArg step hkeptK).symm.trans hu, rfl⟩,
      stepInstance_eq_next_iff.mpr ⟨t, (congrArg step hkeptJ).trans ht, List.set_comm t u hne⟩⟩

end Sys2Proof.Proofs

/-! ## What every cycle of a list keeps, and what its last cycle leaves

An invariant that the operations of a list keep holds after them, and what each of them leaves, whatever the state
before it, holds after the last. -/

namespace Sys2Proof.Proofs
open Sys2Proof.Machine

section
variable {P : State → Prop} {ps : List PortInputs} {s : State}

/-- An invariant that each operation keeps is kept by all of them. -/
theorem applyInputs_induction (hs : P s) (hkeep : ∀ p ∈ ps, ∀ t, P t → P ((operationOf p).apply t)) :
    P (applyInputs ps s) :=
  List.foldlRecOn ps _ hs fun t ht p hp => hkeep p hp t ht

/-- What each operation leaves from every state holds after one or more of them. -/
theorem applyInputs_of_each (hne : ps ≠ []) (heach : ∀ p ∈ ps, ∀ t, P ((operationOf p).apply t)) :
    P (applyInputs ps s) := by
  obtain ⟨p, ps, rfl⟩ := List.exists_cons_of_ne_nil hne
  obtain ⟨hfirst, hrest⟩ := List.forall_mem_cons.mp heach
  rw [applyInputs_cons]
  exact applyInputs_induction (hfirst s) fun q hq t _ => hrest q hq t

/-- A register that each operation keeps, and a strobe that is up before and that each lowers: the register is kept
by all of them, and the strobe stays up only if there are none. -/
theorem applyInputs_held {α : Type} {reg : State → α} {strobe : State → Bool} (hup : strobe s = true)
    (heach : ∀ p ∈ ps, ∀ t, reg ((operationOf p).apply t) = reg t ∧ strobe ((operationOf p).apply t) = false) :
    reg (applyInputs ps s) = reg s ∧ (strobe (applyInputs ps s) = true ↔ ps = []) := by
  have hkept : reg (applyInputs ps s) = reg s :=
    applyInputs_induction (P := fun t => reg t = reg s) rfl fun p hp t ht => (heach p hp t).1.trans ht
  have hdown (hne : ps ≠ []) : strobe (applyInputs ps s) = false :=
    applyInputs_of_each (P := fun t => strobe t = false) hne fun p hp t => (heach p hp t).2
  refine ⟨hkept, fun hstill => by_contra fun hne => ?_, fun hnil => ?_⟩
  · simp [hdown hne] at hstill
  · rwa [hnil]

end

end Sys2Proof.Proofs

/-! ## Reset (R210, R211) and the idle host -/

namespace Sys2Proof.Proofs
open Sys2Proof.Machine

/-- A reset cycle leaves the reset state, whatever else is on the port. -/
theorem step_of_reset {p : PortInputs} {s : State} {rest : List PortCycle} (hrst : p.rst = true)
    (hport : s.port = .sampled p :: rest) : step s = .next (State.reset.setPort rest) := by
  rw [step_of_port_cons hport, (operationOf_eq_reset_iff p).mpr hrst]
  rfl

/-- Settles O10: the last of the reset cycles leaves the reset state, whatever the state before it. -/
theorem resetHeldClearsEveryRegister : Obligations.ResetHeldClearsEveryRegister := by
  intro s p ps rest hrst hport
  have hreset : (applyInputs (p :: ps) s).setPort rest = State.reset.setPort rest :=
    applyInputs_of_each (P := fun t => t.setPort rest = State.reset.setPort rest) (List.cons_ne_nil p ps)
      fun q hq t => by rw [(operationOf_eq_reset_iff q).mpr (hrst q hq)]; rfl
  rw [runCycles_of_port_append hport, hreset]
  rfl

/-- Settles O11: both cycles leave the reset state. -/
theorem resetDiscardsTheCommand : Obligations.ResetDiscardsTheCommand := by
  intro s p rest hrst _ hport
  have hstep := step_of_reset hrst hport
  have hstep' : step (s.setPort (.sampled { p with cmdValid := false } :: rest)) = .next (State.reset.setPort rest) :=
    step_of_reset (p := { p with cmdValid := false }) hrst (State.setPort_port ..)
  exact ⟨hstep.trans hstep'.symm, _, hstep, rfl, rfl, rfl, rfl, rfl, rfl, rfl, rfl⟩

/-- Settles O9: the edge of an idle cycle is a NOP's. -/
theorem afterTheLastListedCycleTheHostIsIdle : Obligations.AfterTheLastListedCycleTheHostIsIdle :=
  fun s hport => (step_nil s hport).trans (congrArg Host.Outcome.next (nopCommand_eq s))

end Sys2Proof.Proofs

/-! ## Silence from reset to the first WRITE (R213) -/

namespace Sys2Proof.Proofs
open Sys2Proof.Machine

/-- The phase, the parameters and the sample are at their reset values. RDATA and the strobes are free. -/
structure Silent (s : State) : Prop where
  acc : s.acc = 0
  inc : s.inc = 0
  blend : s.blend = 0
  shape : s.shape = 0
  out : s.out = 0

/-- At phase 0 the sine is 0, and a STEP that does not advance stays there (R101, R105). -/
theorem Silent.nextSample_eq {s : State} (h : Silent s) : nextSample s = 0 := by
  have hreset : nextSample State.reset = 0 := by decide
  rw [← hreset]
  exact nextSample_congr h.acc h.inc h.blend h.shape

/-- Every operation but a WRITE keeps a silent block silent. -/
theorem Silent.apply {s : State} (h : Silent s) {o : EdgeOperation} (ho : ∀ a w, o ≠ .write a w) :
    Silent (o.apply s) := by
  cases o with
  | reset => exact ⟨rfl, rfl, rfl, rfl, rfl⟩
  | nop => exact { h with }
  | read a => exact { h with }
  | write a w => exact absurd rfl (ho a w)
  | step => exact { h with acc := by simp [h.acc, h.inc], out := h.nextSample_eq }

/-- Settles O12: the reset makes the block silent, and no later cycle is a WRITE. -/
theorem silenceAfterResetUntilAWrite : Obligations.SilenceAfterResetUntilAWrite := by
  intro s r ps rest hrst hps hport
  have hrun := runCycles_of_port_append (ps := r :: ps) hport
  have hstart : Silent ((operationOf r).apply s) := by
    rw [(operationOf_eq_reset_iff r).mpr hrst]
    exact ⟨rfl, rfl, rfl, rfl, rfl⟩
  have hsilent : Silent (applyInputs ps ((operationOf r).apply s)) := applyInputs_induction hstart fun p hp t ht =>
    ht.apply fun a w hwrite => by
      obtain ⟨hr, hv, hop, -⟩ := (operationOf_eq_write_iff p a w).mp hwrite
      simpa [hr, hv, hop] using hps p hp
  exact ⟨_, hrun, hsilent.acc, hsilent.inc, hsilent.blend, hsilent.shape, hsilent.out, rfl⟩

end Sys2Proof.Proofs

/-! ## Command words in consecutive cycles (R214) -/

namespace Sys2Proof.Proofs
open Sys2Proof.Machine

/-- The operation of a cycle that presents a READ word. -/
theorem operationOf_readWord (a : RegAddr) (w : Word) :
    operationOf (commandInputs (makeCommandWord 0b01 a w)) = .read a := by
  rw [operationOf_eq_read_iff]
  simp [commandInputs]

/-- The operation of a cycle that presents a STEP word, with any address and data (R73). -/
theorem operationOf_anyStepWord (a : RegAddr) (w : Word) :
    operationOf (commandInputs (makeCommandWord 0b11 a w)) = .step := by
  rw [operationOf_eq_step_iff]
  simp [commandInputs]

/-- STEP's sample does not depend on the cycles to come. -/
@[simp] theorem nextSample_setPort (s : State) (l : List PortCycle) : nextSample (s.setPort l) = nextSample s :=
  nextSample_congr rfl rfl rfl rfl

/-- Two command words at the front of the list: the operation of the first, then that of the second in the state
the first left. -/
theorem runCycles_two_words {c d : CommandWord} {s : State} {rest : List PortCycle}
    (h : s.port = commandCycle c :: commandCycle d :: rest) :
    runCycles 1 s = .next (((operationOf (commandInputs c)).apply s).setPort (commandCycle d :: rest)) ∧
    runCycles 2 s = .next
      (((operationOf (commandInputs d)).apply ((operationOf (commandInputs c)).apply s)).setPort rest) :=
  ⟨runCycles_of_port_append (ps := [commandInputs c]) h,
    runCycles_of_port_append (ps := [commandInputs c, commandInputs d]) h⟩

/-- Settles O16: each of the two cycles runs its command at once; the examples name the two operations. -/
theorem backToBackCommandsSeeEachOther : Obligations.BackToBackCommandsSeeEachOther := by
  refine ⟨fun s c d rest hport => ?_, fun s x a w rest hport => ?_, fun s a w w' rest hport => ?_,
    fun s x w rest hport => ?_⟩
  · have hfirst := step_commandCycle s c _ hport
    obtain ⟨t, ht, htport⟩ := exec_eq_next (decode c) (s.setPort (commandCycle d :: rest))
    obtain ⟨u, hu, -⟩ := exec_eq_next (decode d) (t.setPort rest)
    have hsecond := (step_commandCycle t d rest htport).trans hu
    exact ⟨t, u, ht, hu, (runCycles_succ_of_next (hfirst.trans ht)).trans (runCycles_succ_of_next hsecond)⟩
  · obtain ⟨-, hrun⟩ := runCycles_two_words hport
    rw [operationOf_writeWord, operationOf_anyStepWord] at hrun
    exact ⟨_, hrun, stepCommand_writeInc_acc x s⟩
  · obtain ⟨hfirst, hrun⟩ := runCycles_two_words hport
    rw [operationOf_anyStepWord] at hfirst hrun
    rw [operationOf_readWord] at hrun
    exact ⟨_, _, hfirst, hrun, outWord_toInt (stepCommand s).out⟩
  · obtain ⟨-, hrun⟩ := runCycles_two_words hport
    rw [operationOf_writeWord, operationOf_readWord] at hrun
    refine ⟨_, hrun, ?_⟩
    exact (congrArg Nat.cast (blendWord_toNat _)).trans (blendOperand_toNat x)

end Sys2Proof.Proofs

/-! ## The ports after a READ and after a STEP (R215, R216) -/

namespace Sys2Proof.Proofs
open Sys2Proof.Machine

section
variable {p : PortInputs}

/-- A cycle with neither a READ nor a reset keeps RDATA and lowers RDV. -/
theorem apply_rdata_rdv_of_no_read (h : p.rst = false ∧ (p.cmdValid = true → p.cmdOp ≠ 0b01)) (s : State) :
    ((operationOf p).apply s).rdata = s.rdata ∧ ((operationOf p).apply s).rdv = false := by
  obtain ⟨hrst, hop⟩ := h
  have hreset : operationOf p ≠ .reset := by simp [operationOf_eq_reset_iff, hrst]
  have hread : ¬ ∃ a, operationOf p = .read a := fun hread => by
    obtain ⟨hv, h1⟩ := command_of_read hread
    exact hop hv h1
  refine ⟨by_contra fun hne => (operation_of_rdata_ne hne).elim hreset hread, ?_⟩
  rwa [← Bool.not_eq_true, EdgeOperation.apply_rdv_iff]

/-- A cycle with neither a STEP nor a reset keeps OUT and lowers OUTV. -/
theorem apply_out_outv_of_no_step (h : p.rst = false ∧ (p.cmdValid = true → p.cmdOp ≠ 0b11)) (s : State) :
    ((operationOf p).apply s).out = s.out ∧ ((operationOf p).apply s).outv = false := by
  obtain ⟨hrst, hop⟩ := h
  have hreset : operationOf p ≠ .reset := by simp [operationOf_eq_reset_iff, hrst]
  have hstep : operationOf p ≠ .step := fun hstep => by
    obtain ⟨-, hv, h3⟩ := (operationOf_eq_step_iff p).mp hstep
    exact hop hv h3
  refine ⟨by_contra fun hne => (operation_of_out_ne hne).elim hreset hstep, ?_⟩
  rwa [← Bool.not_eq_true, EdgeOperation.apply_outv_iff]

end

/-- Settles O50: the word is held, a second READ finds the register map of the first, and reset clears both. -/
theorem readDataAppearsInTheNextCycle : Obligations.ReadDataAppearsInTheNextCycle := by
  refine ⟨fun a w s ps rest hps hport => ?_, fun a b w w' s rest hport => ?_,
    fun s p rest hrst hport => ⟨_, step_of_reset hrst hport, rfl, rfl⟩⟩
  · have hrun := runCycles_of_port_append (ps := commandInputs (makeCommandWord 0b01 a w) :: ps) hport
    rw [applyInputs_cons, operationOf_readWord] at hrun
    exact ⟨_, hrun, applyInputs_held rfl fun p hp => apply_rdata_rdv_of_no_read (hps p hp)⟩
  · obtain ⟨hfirst, hrun⟩ := runCycles_two_words hport
    rw [operationOf_readWord] at hfirst hrun
    rw [operationOf_readWord] at hrun
    exact ⟨_, _, hfirst, hrun, rfl, rfl, regRead_readCommand a b s, rfl⟩

/-- Settles O51: the sample is held, a second STEP computes its own from the state of the first, and reset clears
both. -/
theorem sampleAppearsInTheNextCycle : Obligations.SampleAppearsInTheNextCycle := by
  refine ⟨fun a w s ps rest hps hport => ?_, fun a a' w w' s rest hport => ?_,
    fun s p rest hrst hport => ⟨_, step_of_reset hrst hport, rfl, rfl⟩⟩
  · have hrun := runCycles_of_port_append (ps := commandInputs (makeCommandWord 0b11 a w) :: ps) hport
    rw [applyInputs_cons, operationOf_anyStepWord] at hrun
    exact ⟨_, hrun, applyInputs_held rfl fun p hp => apply_out_outv_of_no_step (hps p hp)⟩
  · obtain ⟨hfirst, hrun⟩ := runCycles_two_words hport
    rw [operationOf_anyStepWord] at hfirst hrun
    rw [operationOf_anyStepWord] at hrun
    exact ⟨_, _, hfirst, hrun, rfl, (nextSample_setPort ..).symm, rfl⟩

end Sys2Proof.Proofs

/-! ## What a run shows (R213, R220) -/

namespace Sys2Proof.Proofs
open Sys2Proof.Machine

/-- A cycle that shows nothing adds nothing to the observation of the cycles after it. -/
theorem observe_succ_of_unshown {n : ℕ} {s s' : State} (hstep : step s = .next s') (hrdv : s'.rdv = false)
    (houtv : s'.outv = false) : observe (n + 1) s = observe n s' := by
  simp only [observe, hstep, shownSample, shownRead, hrdv, houtv]
  cases observe n s' <;> rfl

/-- R213: what a run shows is what its cycles show from the reset state. -/
theorem observeRun_eq_observe_reset (n : ℕ) (cycles : List PortCycle) :
    observeRun n cycles = observe cycles.length (State.reset.setPort cycles) :=
  observe_succ_of_unshown (step_of_reset (p := resetInputs) rfl rfl) rfl rfl

/-- A cycle raises OUTV exactly if it presents a STEP that no reset discards. -/
theorem apply_outv_eq (p : PortInputs) (s : State) :
    ((operationOf p).apply s).outv = (!p.rst && p.cmdValid && p.cmdOp == 0b11) := by
  rw [Bool.eq_iff_iff, EdgeOperation.apply_outv_iff, operationOf_eq_step_iff]
  simp [and_assoc]

/-- A cycle raises RDV exactly if it presents a READ that no reset discards. -/
theorem apply_rdv_eq (p : PortInputs) (s : State) :
    ((operationOf p).apply s).rdv = (!p.rst && p.cmdValid && p.cmdOp == 0b01) := by
  rw [Bool.eq_iff_iff, EdgeOperation.apply_rdv_iff]
  simp [operationOf_eq_read_iff, and_assoc]

/-- Sampled cycles are observed to their end: one sample for each STEP, one word for each READ, and the state they
leave. -/
theorem observe_of_port_append {ps : List PortInputs} {s : State} {rest : List PortCycle}
    (h : s.port = ps.map PortCycle.sampled ++ rest) :
    ∃ o, observe ps.length s = .next o ∧
      o.outs.length = (ps.filter (fun p => !p.rst && p.cmdValid && p.cmdOp == 0b11)).length ∧
      o.reads.length = (ps.filter (fun p => !p.rst && p.cmdValid && p.cmdOp == 0b01)).length ∧
      o.final = (applyInputs ps s).setPort rest := by
  induction ps generalizing s with
  | nil => exact ⟨_, rfl, rfl, rfl, (setPort_self h).symm⟩
  | cons p ps ih =>
    obtain ⟨o, ho, houts, hreads, hfinal⟩ := ih (s := ((operationOf p).apply s).setPort _) rfl
    refine ⟨_, observe_succ_of_next (step_of_port_cons h) ho, ?_, ?_, ?_⟩
    · rw [List.length_append, houts, shownSample, State.setPort_outv, apply_outv_eq, List.filter_cons]
      split <;> simp [Nat.add_comm]
    · rw [List.length_append, hreads, shownRead, State.setPort_rdv, apply_rdv_eq, List.filter_cons]
      split <;> simp [Nat.add_comm]
    · rw [hfinal, applyInputs_setPort]
      rfl

/-- Every list of cycles keeps the blend code legal (R23). -/
theorem applyInputs_blendLegal {s : State} (h : s.blendLegal) (ps : List PortInputs) : (applyInputs ps s).blendLegal :=
  applyInputs_induction h fun p _ _ ht => (EdgeOperation.apply_inv ht (operationOf p)).blend

/-- Settles O56: the run of either power-up is that of the reset state, whose blend code is legal. -/
theorem runsForgetThePowerOnState : Obligations.RunsForgetThePowerOnState := by
  intro n m ps
  obtain ⟨o, ho, houts, hreads, hfinal⟩ := observe_of_port_append
    (s := State.reset.setPort (ps.map PortCycle.sampled)) (List.append_nil _).symm
  have hblend : o.final.blend.toNat ≤ 65536 := by
    rw [hfinal]
    exact applyInputs_blendLegal (s := State.reset.setPort _) (Nat.zero_le _) ps
  rw [observeRun_eq_observe_reset, observeRun_eq_observe_reset, List.length_map]
  exact ⟨rfl, o, ho, houts, hreads, hblend⟩

end Sys2Proof.Proofs

/-! ## Disturbed cycles (93_implementation_defined.md I6, I7, I13) -/

namespace Sys2Proof.Proofs
open Sys2Proof.Machine

/-- Settles O14: the head of the host's list decides the cycle, and the edge of a disturbed one refuses. -/
theorem disturbedCycleIsRefused : Obligations.DisturbedCycleIsRefused :=
  fun s d rest hport => step_disturbed s d rest hport

end Sys2Proof.Proofs
